-- ==== Sys2Proof/Word.lean ====
section
/-! DEFINITION. The words of the hub: bytes on the station ports, two-byte numbers, and the 32-bit counters. -/

namespace Sys2Proof

/-- One byte on a station port, on the wire, or in a granule. -/
abbrev Byte := BitVec 8

/-- A two-byte number as the ports carry it. -/
abbrev Half := BitVec 16

/-- A 32-bit counter or sequence number. -/
abbrev Word := BitVec 32

end Sys2Proof
end

