-- ==== Sys2Proof/Config.lean ====
section
/-! DEFINITION. What the manual leaves open as a free value.
The fixed figures of the manual stand in Machine/Figures.lean. -/

namespace Sys2Proof

/-- Free value (log 3): which of several events of the hub's own that are due at one instant is taken
first while no command waits.
The manual gives the outcome of either order and no rule for the order (00, Events and operations that
take time), so this function has no body.
It is applied to the counter `Clock.choices`. -/
opaque Config.dueChoice : Nat → Nat

end Sys2Proof
end

