-- ==== Sys2Proof/Syntax.lean ====
section
/-! DEFINITION. The commands and events of the hub: one constructor of `Instr` for each row of
spec/opcode_table.json, and the types of their operands. -/

namespace Sys2Proof

/-- A station, numbered 0 to 3 (00, Stations, sets and origins). -/
inductive Station where
  | s0 | s1 | s2 | s3
deriving DecidableEq, Repr

/-- The four stations in ascending order. -/
def Station.all : List Station := [.s0, .s1, .s2, .s3]

/-- The station's number. -/
def Station.idx : Station → Nat
  | .s0 => 0 | .s1 => 1 | .s2 => 2 | .s3 => 3

/-- The next station in the cyclic order 0, 1, 2, 3, 0 (R126). -/
def Station.next : Station → Station
  | .s0 => .s1 | .s1 => .s2 | .s2 => .s3 | .s3 => .s0

/-- One value for each of the four stations. -/
structure Per (α : Type) where
  s0 : α
  s1 : α
  s2 : α
  s3 : α
deriving DecidableEq, Repr

/-- The value of one station. -/
def Per.get {α : Type} (v : Per α) : Station → α
  | .s0 => v.s0 | .s1 => v.s1 | .s2 => v.s2 | .s3 => v.s3

/-- The values with one station's value replaced. -/
def Per.set {α : Type} (v : Per α) (p : Station) (a : α) : Per α :=
  match p with
  | .s0 => { v with s0 := a }
  | .s1 => { v with s1 := a }
  | .s2 => { v with s2 := a }
  | .s3 => { v with s3 := a }

/-- The same value for every station. -/
def Per.const {α : Type} (a : α) : Per α := ⟨a, a, a, a⟩

/-- A value computed for each station. -/
def Per.of {α : Type} (f : Station → α) : Per α := ⟨f .s0, f .s1, f .s2, f .s3⟩

/-- A table with a fixed number of rows, kept as a list with its length. -/
structure Table (n : Nat) (α : Type) where
  rows : List α
  len : rows.length = n
deriving DecidableEq, Repr

/-- The row at an index. -/
def Table.get {n : Nat} {α : Type} (t : Table n α) (i : Fin n) : α :=
  t.rows[i.val]'(by have := t.len; omega)

/-- The table with one row replaced. -/
def Table.set {n : Nat} {α : Type} (t : Table n α) (i : Fin n) (a : α) : Table n α :=
  ⟨t.rows.set i.val a, by simp [t.len]⟩

/-- The table with every row passed through a function of its index. -/
def Table.mapIdx {n : Nat} {α : Type} (f : Nat → α → α) (t : Table n α) : Table n α :=
  ⟨t.rows.mapIdx f, by simp [t.len]⟩

/-- Two tables of one size combined row by row. -/
def Table.zipWith {n : Nat} {α β γ : Type} (f : α → β → γ) (t : Table n α) (u : Table n β) :
    Table n γ :=
  ⟨List.zipWith f t.rows u.rows, by simp [t.len, u.len]⟩

/-- The table whose rows are all the same. -/
def Table.const (n : Nat) {α : Type} (a : α) : Table n α :=
  ⟨List.replicate n a, by simp⟩

/-- A set of stations, carried on the ports as a mask (Table 11-1). -/
abbrev StationSet := BitVec 4

/-- Which PHY side input changes (Table 7-1); SPEED100 has an event of its own. -/
inductive PhyInput where
  | linkup | fullDuplex
deriving DecidableEq, Repr

/-- How the reception of a link frame ends at the MAC (R138).
`checked` carries the 32 received check-sequence bits in the order they pass on the wire, the first one
in bit 31, and whether the PHY indicated a receive error; `noCheck` is a frame of four bytes or fewer;
`cutOff` is the end by loss of the link. -/
inductive LinkEnd where
  | checked (fcs : Word) (rxError : Bool)
  | noCheck
  | cutOff
deriving DecidableEq, Repr

/-- One station's figures in a partition record (Table 8-1, Table 11-10). -/
structure Share where
  quota : Half
  allowance : Byte
  weight : Byte
deriving DecidableEq, Repr

/-- A partition record without its record number, each field as wide as the ports carry it
(Table 8-1, Table 11-10). -/
structure PartitionRecord where
  share : Per Share
  reserve : Byte
  pauseOn : Half
  pauseOff : Half
  quanta : Half
  holdLimit : Half
deriving DecidableEq, Repr

/-- The 29 defined station commands (Table 11-2). -/
inductive Command where
  | status | getresult | linkstatus | pread
  | join | leave | suspend | resume | setaccept
  | claim | draft | publish | disable | retire | tread
  | rxpeek | rxread | rxrelease
  | txopen | txwrite | txpost | txcancel | txdone
  | propose | endorse | object
  | events | setmask | snapshot
deriving DecidableEq, Repr

/-- The commands and events of the hub, one constructor per row of spec/opcode_table.json.
A station command is the event of its command-taken point (R179) on the port of station `p`, with the
parameters and data that its transaction carries. -/
inductive Instr where
  | selectFall (p : Station)
  | selectRise (p : Station)
  | undefinedCommand (p : Station) (code : Byte)
  | status (p : Station)
  | getresult (p : Station)
  | linkstatus (p : Station)
  | pread (p : Station)
  | join (p : Station)
  | leave (p : Station)
  | suspend (p : Station)
  | resume (p : Station)
  | setaccept (p : Station) (acceptSet : Byte) (intake : Byte)
  | claim (p : Station) (index : Byte)
  | draft (p : Station) (contents : List Byte)
  | publish (p : Station) (index : Byte)
  | disable (p : Station) (index : Byte)
  | retire (p : Station) (index : Byte)
  | tread (p : Station) (index : Byte)
  | rxpeek (p : Station) (count : Byte)
  | rxread (p : Station) (handle : Byte) (offset count : Half) (release : Byte)
  | lastRequestedByte (p : Station)
  | rxrelease (p : Station) (handle : Byte)
  | txopen (p : Station) (length : Half)
  | txwrite (p : Station) (handle : Byte) (offset : Half) (data : List Byte)
  | txpost (p : Station) (handle : Byte) (flags : Byte)
  | txcancel (p : Station) (handle : Byte)
  | txdone (p : Station)
  | propose (p : Station) (record : PartitionRecord)
  | endorse (p : Station) (number : Half)
  | object (p : Station) (number : Half)
  | events (p : Station)
  | setmask (p : Station) (mask : Half)
  | snapshot (p : Station) (option : Byte)
  | presentFall (p : Station)
  | presentRise (p : Station)
  | deviceReset
  | phyInputChange (input : PhyInput) (level : Bool)
  | speedChange (level : Bool)
  | linkInputCompare
  | frameStart
  | byteArrival (b : Byte)
  | frameEnd (e : LinkEnd)
  | transmissionComplete
  | flowControlComplete
  | pauseTimerExpiry
  | refreshTimerExpiry
  | holdLimitExpiry (p : Station)
  | proposalExpiry
  | completedByte (p : Station) (mosi : Byte)
deriving DecidableEq, Repr

end Sys2Proof
end

