-- ==== Sys2Proof/Decode.lean ====
section
/-! DEFINITION. The command codes and the counting of input bytes on a station port (Chapter 11), and
`decodeTableWord`, which the host asks for the rows of the table that give bits: there are none. -/

namespace Sys2Proof

/-- The command code of a defined command (Table 11-2). -/
def Command.code : Command → Byte
  | .status => 0x01 | .getresult => 0x02 | .linkstatus => 0x03 | .pread => 0x04
  | .join => 0x10 | .leave => 0x11 | .suspend => 0x12 | .resume => 0x13 | .setaccept => 0x14
  | .claim => 0x20 | .draft => 0x21 | .publish => 0x22 | .disable => 0x23 | .retire => 0x24
  | .tread => 0x25
  | .rxpeek => 0x30 | .rxread => 0x31 | .rxrelease => 0x32
  | .txopen => 0x40 | .txwrite => 0x41 | .txpost => 0x42 | .txcancel => 0x43 | .txdone => 0x44
  | .propose => 0x50 | .endorse => 0x51 | .object => 0x52
  | .events => 0x60 | .setmask => 0x61 | .snapshot => 0x62

/-- Every defined command, in the order of Table 11-2. -/
def Command.list : List Command :=
  [.status, .getresult, .linkstatus, .pread, .join, .leave, .suspend, .resume, .setaccept,
   .claim, .draft, .publish, .disable, .retire, .tread, .rxpeek, .rxread, .rxrelease,
   .txopen, .txwrite, .txpost, .txcancel, .txdone, .propose, .endorse, .object,
   .events, .setmask, .snapshot]

/-- The command a command byte names, or none for an undefined code (Table 11-2, R182). -/
def Command.ofCode (b : Byte) : Option Command :=
  Command.list.find? fun c => c.code = b

/-- Whether a command is of the read type (Table 10-4, Table 11-2). -/
def Command.isRead : Command → Bool
  | .leave | .suspend | .resume | .draft | .rxrelease | .txwrite | .txcancel | .endorse | .object
  | .setmask => false
  | _ => true

/-- The value of a big-endian byte string: multi-byte numbers go most-significant byte first (11). -/
def beNat (bytes : List Byte) : Nat := bytes.foldl (fun acc b => acc * 256 + b.toNat) 0

/-- The last `n` base-256 digits of a number, most-significant byte first (11). -/
def beBytes : Nat → Nat → List Byte
  | 0, _ => []
  | n + 1, v => beBytes n (v / 256) ++ [BitVec.ofNat 8 v]

/-- The number of DRAFT bytes that the bytes received so far call for, once they tell it (R191): the
kind byte at offset 6 and, for PATTERN, the length byte at offset 9. -/
def draftLength (input : List Byte) : Option Nat :=
  if input.length < 7 then none
  else
    match (input.getD 6 0).toNat with
    | 0 => some 14
    | 1 => some 15
    | 2 => some 9
    | 3 => if input.length < 10 then none else some (10 + 2 * (input.getD 9 0).toNat)
    | _ => some 7

/-- The number of TXWRITE bytes that the bytes received so far call for: five parameter bytes, then as
many data bytes as the count field gives, whatever its value (R114, R183, R191). -/
def txwriteLength (input : List Byte) : Option Nat :=
  if input.length < 5 then none else some (5 + beNat ((input.drop 3).take 2))

/-- The number of parameter and data bytes of a command, once the bytes received so far tell it
(Table 11-2, R177, R191). -/
def Command.inputLength (c : Command) (input : List Byte) : Option Nat :=
  match c with
  | .status | .getresult | .linkstatus | .pread | .join | .leave | .suspend | .resume | .txdone
  | .events => some 0
  | .claim | .publish | .disable | .retire | .tread | .rxpeek | .rxrelease | .txcancel
  | .snapshot => some 1
  | .setaccept | .txopen | .txpost | .endorse | .object | .setmask => some 2
  | .rxread => some 6
  | .propose => some 25
  | .draft => draftLength input
  | .txwrite => txwriteLength input

/-- Whether the input bytes received are the whole input of the command, so that the last of them is
its command-taken point (R179). -/
def Command.inputComplete (c : Command) (input : List Byte) : Bool :=
  c.inputLength input == some input.length

/-- The command that a word spells by the bits spec/opcode_table.json gives: no row of the table gives
bits, so no word spells one. -/
def decodeTableWord (_nbits _w : Nat) : Option Instr := none

end Sys2Proof
end

