-- ==== Sys2Proof/Machine/Figures.lean ====
section
/-! DEFINITION. The fixed figures of the manual, the units of time, and the default partition record. -/

namespace Sys2Proof.Machine

/-- Units of `Clock.now` in one millisecond: a unit is 10 ns (log 2). -/
def unitsPerMs : Nat := 100000

/-- Longest stored frame (00, Frame lengths). -/
def maxLength : Nat := 1514

/-- Shortest good link frame, and the shortest wire length (00, Frame lengths). -/
def minWireLength : Nat := 60

/-- Shortest posted frame (00, Frame lengths). -/
def minPostLength : Nat := 14

/-- Bytes in one granule (R1). -/
def granuleSize : Nat := 128

/-- Most entries an intake queue holds (R95). -/
def intakeCapacity : Nat := 32

/-- The transmit allowance of every station (R112). -/
def transmitAllowance : Nat := 8

/-- The life of a proposal, 200 ms (R157). -/
def proposalLife : Nat := 200 * unitsPerMs

/-- Bytes credited per unit of weight (R126). -/
def creditPerWeight : Nat := 256

/-- Visits after which the examination of R126 stops at the latest; it passes round the four stations at
most six times after the visit it begins with, so the bound is never what ends it. -/
def examinationBound : Nat := 32

/-- The default share of every station: quota 128, allowance 16, weight 4 (R151). -/
def defaultShare : Share := { quota := 128, allowance := 16, weight := 4 }

/-- The default partition record (R151). -/
def defaultRecord : PartitionRecord :=
  { share := Per.const defaultShare, reserve := 24, pauseOn := 32, pauseOff := 96,
    quanta := 2048, holdLimit := 0 }

/-- The level of every input pin in `State.reset`; DESIGN CHOICE, log 1. -/
def resetPinLevel : Bool := false

/-- The granule count of a frame of `length` bytes (00, Frame lengths; R20). -/
def granulesFor (length : Nat) : Nat := (length + (granuleSize - 1)) / granuleSize

/-- The wire length of a frame (00, Frame lengths). -/
def wireLengthOf (length : Nat) : Nat := max length minWireLength

end Sys2Proof.Machine
end

