-- ==== Sys2Proof/Machine/State.lean ====
section
/-! DEFINITION. The state of the hub, block by block in the order of Table 0-1, and its value right after
device reset. -/

namespace Sys2Proof.Machine

/-! ### Frame Store (Chapter 1) -/

/-- A granule number, 0 to 511 (R1). -/
abbrev Granule := Fin 512

/-- A handle, 0 to 127: the index of a frame record. -/
abbrev Handle := Fin 128

/-- The index of a steering entry, 0 to 63. -/
abbrev EntryIndex := Fin 64

/-- The granule memory: 65 536 bytes, as address and byte pairs with rising addresses and no zero byte.
An unlisted byte reads as 0 (log 4). -/
abbrev Memory := List Host.Cell

/-- The states of a frame record (Table 1-1). -/
inductive FrameState where
  | free | filling | building | settled
deriving DecidableEq, Repr

/-- Who produced a frame (00, Stations, sets and origins). -/
inductive Origin where
  | link
  | station (p : Station)
deriving DecidableEq, Repr

/-- The hold set of a frame (Table 1-3, R7): one hold of each kind, per station where the kind is. -/
@[ext]
structure Holds where
  fill : Bool
  build : StationSet
  intake : StationSet
  read : StationSet
  post : StationSet
  wire : Bool
deriving DecidableEq, Repr

/-- The wire decision of a local classification (Table 3-3). -/
inductive WireDecision where
  | wire | contained
deriving DecidableEq, Repr

/-- The classification result (Table 3-3). -/
structure ClassResult where
  sequence : Word
  generation : Half
  deciding : Option EntryIndex
  delivery : StationSet
  wake : StationSet
  wire : Option WireDecision
deriving DecidableEq, Repr

/-- A frame record (Table 1-1). -/
@[ext]
structure Frame where
  state : FrameState
  origin : Option Origin
  length : Nat
  chain : List Granule
  holds : Holds
  result : Option ClassResult
  truncated : Bool
  tooLong : Bool
deriving DecidableEq, Repr

/-- The Frame Store: the memory, the free list and the frame table. -/
@[ext]
structure FrameStore where
  mem : Memory
  freeList : List Granule
  frames : Table 128 Frame
deriving DecidableEq, Repr

/-! ### Steering Table (Chapter 2) -/

/-- The states of a steering entry (Table 2-1). -/
inductive EntryState where
  | free | idle | active
deriving DecidableEq, Repr

/-- Which frames an entry applies to (R25). -/
inductive Scope where
  | arrivals | localPosts | both
deriving DecidableEq, Repr

/-- What an entry does (R54 to R56). -/
inductive Action where
  | deliver | discard | contain
deriving DecidableEq, Repr

/-- The address an ADDRESS entry compares (Table 2-2). -/
inductive AddrField where
  | dest | src
deriving DecidableEq, Repr

/-- The match kinds with their parameters (Table 2-2).
`group` has bucket `b` in bit `b`; the offset of a pattern is kept as it was sent (R27). -/
inductive MatchKind where
  | address (field : AddrField) (value : BitVec 48)
  | group (buckets : BitVec 64)
  | ethertype (value : Half)
  | pattern (offset : Half) (template mask : List Byte)
  | all
deriving DecidableEq, Repr

/-- Complete contents of an entry or a draft (Table 2-1). -/
structure Contents where
  precedence : Byte
  scope : Scope
  originSet : Option StationSet
  targets : StationSet
  action : Action
  terminal : Bool
  wake : Bool
  kind : MatchKind
deriving DecidableEq, Repr

/-- A steering entry; `contents` none means empty contents (R24). -/
@[ext]
structure Entry where
  state : EntryState
  owner : Option Station
  contents : Option Contents
  hits : Word
deriving DecidableEq, Repr

/-- The Steering Table: entries, drafts and the table generation number. -/
@[ext]
structure SteeringTable where
  entries : Table 64 Entry
  drafts : Per (Option Contents)
  generation : Half
deriving DecidableEq, Repr

/-! ### Session Controllers (Chapter 4) -/

/-- The session states (Table 4-1). -/
inductive SessionState where
  | offline | active | suspended
deriving DecidableEq, Repr

/-- The default intake values (Table 4-1). -/
inductive DefaultIntake where
  | none | broadcast | all
deriving DecidableEq, Repr

/-- One Session Controller (Table 4-1). -/
@[ext]
structure Session where
  state : SessionState
  number : Byte
  accept : StationSet
  defaultIntake : DefaultIntake
deriving DecidableEq, Repr

/-! ### Intake Queues and Post Paths (Chapters 5 and 6) -/

/-- An intake entry (R95); `admitted` is the admission time as an instant of `Clock.now`. -/
structure IntakeEntry where
  handle : Handle
  admitted : Nat
  wake : Bool
deriving DecidableEq, Repr

/-- A post entry (Table 6-2). -/
structure PostEntry where
  handle : Handle
  number : Byte
  deliveries : Nat
  wireLength : Nat
  started : Bool
deriving DecidableEq, Repr

/-- How a post ended (Table 6-5). -/
inductive PostOutcome where
  | sent | contained | cancelled | linkLost
deriving DecidableEq, Repr

/-- A completion entry (Table 6-5). -/
structure Completion where
  handle : Handle
  number : Byte
  outcome : PostOutcome
  deliveries : Nat
  wireLength : Nat
deriving DecidableEq, Repr

/-- One Post Path (Table 6-1); its build set is computed from the frame table. -/
@[ext]
structure PostPath where
  queue : List PostEntry
  completions : List Completion
  number : Byte
deriving DecidableEq, Repr

/-- The Transmit Scheduler (R125). -/
@[ext]
structure Scheduler where
  pointer : Station
  deficit : Per Nat
  credited : Per Bool
deriving DecidableEq, Repr

/-! ### Link MAC (Chapter 7) -/

/-- The link speeds (R134). -/
inductive Speed where
  | m10 | m100
deriving DecidableEq, Repr

/-- The link state with its speed; there is no speed while DOWN (R134). -/
inductive LinkState where
  | down
  | up (speed : Speed)
deriving DecidableEq, Repr

/-- The receiver states (Table 5-1). -/
inductive Receiver where
  | idle
  | storing (handle : Handle)
  | skipping
deriving DecidableEq, Repr

/-- The transmitter states (Table 7-4), with the instant at which the transmission completes (R141). -/
inductive Transmitter where
  | idle
  | station (origin : Station) (handle : Handle) (endsAt : Nat)
  | flow (quanta : Half) (endsAt : Nat)
deriving DecidableEq, Repr

/-- The flow-control generator (Table 7-5). -/
@[ext]
structure Generator where
  asserted : Bool
  pending : Option Half
  refreshAt : Option Nat
deriving DecidableEq, Repr

/-- The Link MAC. `comparePending` says that the comparison of the inputs which follows a device reset or
a speed change is still to come (R134, R135). -/
@[ext]
structure Mac where
  link : LinkState
  comparePending : Bool
  receiver : Receiver
  rxCrc : Word
  tx : Transmitter
  pauseUntil : Option Nat
  gen : Generator
deriving DecidableEq, Repr

/-! ### Partition Unit (Chapter 8) -/

/-- The open proposal (Table 8-3). -/
structure Proposal where
  number : Half
  proposer : Station
  record : PartitionRecord
  required : StationSet
  endorsed : StationSet
  expiry : Nat
deriving DecidableEq, Repr

/-- How a proposal ended (Table 8-2). -/
inductive ProposalOutcome where
  | installed (number : Half)
  | abandoned (number : Half)
deriving DecidableEq, Repr

/-- The Partition Unit (Table 8-2). -/
@[ext]
structure PartitionUnit where
  installed : PartitionRecord
  recordNumber : Half
  proposal : Option Proposal
  counter : Half
  lastOutcome : Option ProposalOutcome
deriving DecidableEq, Repr

/-! ### Attention Unit and Statistics (Chapter 9) -/

/-- A set of event flags, one bit for each flag in the order of Table 11-1. -/
abbrev FlagSet := BitVec 11

/-- The eleven event flags (Table 9-1). -/
inductive Flag where
  | rxready | txdone | wake | drop | expired | link | proposal | partition | abandoned | table
  | saturated
deriving DecidableEq, Repr

/-- The Attention Unit's state for one station (Table 9-1); `attn` true means asserted, driven low. -/
@[ext]
structure Attention where
  flags : FlagSet
  mask : FlagSet
  attn : Bool
deriving DecidableEq, Repr

/-- The names of the fourteen link counters (Table 9-3). -/
inductive LinkCounter where
  | goodFrames | goodBytes | fcsErrors | runts | tooLong | noSlot | truncated | aborted
  | undelivered | pauseReceived | pauseSent | framesSent | bytesSent | linkLost
deriving DecidableEq, Repr

/-- The fourteen link counters, in the order of section 11.7. -/
@[ext]
structure LinkCounters where
  goodFrames : Word
  goodBytes : Word
  fcsErrors : Word
  runts : Word
  tooLong : Word
  noSlot : Word
  truncated : Word
  aborted : Word
  undelivered : Word
  pauseReceived : Word
  pauseSent : Word
  framesSent : Word
  bytesSent : Word
  linkLost : Word
deriving DecidableEq, Repr

/-- The names of the eleven station counters (Table 9-4). -/
inductive StationCounter where
  | delivered | wakeDeliveries | queueFullDrops | quotaDrops | asleepDrops | expired | posted
  | localDeliveries | sent | contained | cancelled
deriving DecidableEq, Repr

/-- The eleven counters of one station, in the order of section 11.7. -/
@[ext]
structure StationCounters where
  delivered : Word
  wakeDeliveries : Word
  queueFullDrops : Word
  quotaDrops : Word
  asleepDrops : Word
  expired : Word
  posted : Word
  localDeliveries : Word
  sent : Word
  contained : Word
  cancelled : Word
deriving DecidableEq, Repr

/-! ### Station Ports (Chapter 10) -/

/-- The transaction phases (Table 10-1). Select is low exactly when the phase is not IDLE. -/
inductive Phase where
  | idle | command | input | turnaround | result | output | discard
deriving DecidableEq, Repr

/-- The result codes (Table 10-2). -/
inductive Result where
  | ok | empty | busy | tooLate | noSession | absent | noRoom | badHandle | badArg | denied | stale
  | notNeeded
deriving DecidableEq, Repr

/-- The last result of a port: a result code, or the value "abandoned" (R184). -/
inductive LastResult where
  | code (r : Result)
  | abandoned
deriving DecidableEq, Repr

/-- The RXREAD under way on a port after its command-taken point, until select rises (R100 to R102);
`sent` counts the data bytes shifted out. -/
structure ReadStream where
  handle : Handle
  offset : Nat
  count : Nat
  release : Bool
  sent : Nat
deriving DecidableEq, Repr

/-- One station port. `code` is the completed command byte of the transaction under way, `result` the
result decided in it, `miso` the byte shifted out with the last completed byte (none: not driven). -/
@[ext]
structure Port where
  phase : Phase
  summary : Byte
  code : Option Byte
  input : List Byte
  result : Option Result
  response : List Byte
  reading : Option ReadStream
  lastResult : LastResult
  lastCommand : Option Byte
  miso : Option Byte
deriving DecidableEq, Repr

/-! ### The whole hub -/

/-- The model's clock (log 2) and the counter of its free choices (log 3). -/
@[ext]
structure Clock where
  now : Nat
  choices : Nat
deriving DecidableEq, Repr

/-- The levels of the input pins (R68, Table 7-1). -/
@[ext]
structure Pins where
  present : Per Bool
  linkup : Bool
  fullDuplex : Bool
  speed100 : Bool
deriving DecidableEq, Repr

/-- The state of the hub, and the queue of the commands and events that wait to be taken. -/
@[ext]
structure State where
  clock : Clock
  pins : Pins
  store : FrameStore
  table : SteeringTable
  sequence : Word
  sessions : Per Session
  intake : Per (List IntakeEntry)
  posts : Per PostPath
  scheduler : Scheduler
  mac : Mac
  partition : PartitionUnit
  attention : Per Attention
  linkCounters : LinkCounters
  stationCounters : Per StationCounters
  ports : Per Port
  pending : List Instr
deriving DecidableEq, Repr

/-- Why the machine stops with a fault: never. The manual gives the hub no fault; every command ends with
a result code (Table 10-2), and every event has an outcome. -/
inductive Fault where
deriving DecidableEq, Repr

/-- Why a command has no meaning. -/
inductive Refusal where
  /-- Raised by an arm of `exec` whose command has no meaning yet; no arm is left so. Safe. -/
  | notModelled (mnemonic : String)
  /-- Raised by the meanings of UNDEFINED_COMMAND, DRAFT and TXWRITE for a term that is no command of the
  table, because `Instr.wf` fails (log 7). Safe: no transaction on a port spells such a term. -/
  | illFormed
deriving DecidableEq, Repr

/-! ### After device reset -/

/-- No hold at all. -/
def Holds.none : Holds :=
  { fill := false, build := 0, intake := 0, read := 0, post := 0, wire := false }

/-- A FREE record (R3). -/
def Frame.free : Frame :=
  { state := .free, origin := .none, length := 0, chain := [], holds := .none, result := .none,
    truncated := false, tooLong := false }

/-- The Frame Store after device reset (R23). -/
def FrameStore.reset : FrameStore :=
  { mem := [], freeList := List.finRange 512, frames := Table.const 128 Frame.free }

/-- A FREE entry (R24). -/
def Entry.free : Entry := { state := .free, owner := .none, contents := .none, hits := 0 }

/-- The Steering Table after device reset (R44). -/
def SteeringTable.reset : SteeringTable :=
  { entries := Table.const 64 Entry.free, drafts := Per.const .none, generation := 0 }

/-- A Session Controller after device reset (R67). -/
def Session.reset : Session :=
  { state := .offline, number := 0, accept := 0, defaultIntake := .none }

/-- A Post Path after device reset (R111). -/
def PostPath.reset : PostPath := { queue := [], completions := [], number := 0 }

/-- The Transmit Scheduler after device reset (R125). -/
def Scheduler.reset : Scheduler :=
  { pointer := .s0, deficit := Per.const 0, credited := Per.const false }

/-- The flow-control generator after device reset, or after a move to DOWN (Table 7-5, R136). -/
def Generator.clear : Generator := { asserted := false, pending := .none, refreshAt := .none }

/-- The Link MAC after device reset (R150); the comparison of the inputs is still to come (R134). -/
def Mac.reset : Mac :=
  { link := .down, comparePending := true, receiver := .idle, rxCrc := BitVec.allOnes 32,
    tx := .idle, pauseUntil := .none, gen := .clear }

/-- The Partition Unit after device reset (R164). -/
def PartitionUnit.reset : PartitionUnit :=
  { installed := defaultRecord, recordNumber := 0, proposal := .none, counter := 0,
    lastOutcome := .none }

/-- The Attention Unit for one station after device reset (Table 9-1). -/
def Attention.reset : Attention := { flags := 0, mask := 0, attn := false }

/-- All link counters at 0 (R171). -/
def LinkCounters.zero : LinkCounters := ⟨0, 0, 0, 0, 0, 0, 0, 0, 0, 0, 0, 0, 0, 0⟩

/-- All counters of a station at 0 (R171). -/
def StationCounters.zero : StationCounters := ⟨0, 0, 0, 0, 0, 0, 0, 0, 0, 0, 0⟩

/-- A port after device reset with select high (R184, R188). -/
def Port.reset : Port :=
  { phase := .idle, summary := 0, code := .none, input := [], result := .none, response := [],
    reading := .none, lastResult := .code .ok, lastCommand := .none, miso := .none }

/-- The hub right after device reset, with no command waiting. The levels of the input pins are the
model's choice (log 1); every other value is the manual's or unobservable (INVENTORY.md, State). -/
def State.reset : State :=
  { clock := { now := 0, choices := 0 },
    pins := { present := Per.const resetPinLevel, linkup := resetPinLevel,
              fullDuplex := resetPinLevel, speed100 := resetPinLevel },
    store := .reset, table := .reset, sequence := 0, sessions := Per.const .reset,
    intake := Per.const [], posts := Per.const .reset, scheduler := .reset, mac := .reset,
    partition := .reset, attention := Per.const .reset, linkCounters := .zero,
    stationCounters := Per.const .zero, ports := Per.const .reset, pending := [] }

end Sys2Proof.Machine
end

