-- ==== Sys2Proof/Machine/Ops.lean ====
section
/-! DEFINITION. The named operations over station sets, the granule memory, the frame table and the
per-station state of the other blocks. -/

namespace Sys2Proof.Machine

/-! ### Sets of stations -/

/-- The set that holds one station (Table 11-1: bit n means station n). -/
def setOf (p : Station) : StationSet := BitVec.ofNat 4 (2 ^ p.idx)

/-- Whether a station is in a set. -/
def inSet (s : StationSet) (p : Station) : Bool := s.getLsbD p.idx

/-- The set with one station added. -/
def insertStation (s : StationSet) (p : Station) : StationSet := s ||| setOf p

/-- The set with one station removed. -/
def eraseStation (s : StationSet) (p : Station) : StationSet := s &&& ~~~ (setOf p)

/-- The set of the stations that meet a condition. -/
def stationsWhere (c : Station → Bool) : StationSet :=
  Station.all.foldl (fun s p => if c p then insertStation s p else s) 0

/-! ### The granule memory (R1, R6) -/

/-- One byte of the memory; an unlisted byte reads as 0 (log 4). -/
def readByte (m : Memory) (a : Nat) : Byte :=
  match m with
  | [] => 0
  | c :: rest => if c.1 = a then c.2 else readByte rest a

/-- A cell put in its place among cells of other addresses. -/
def insertCell (a : Nat) (b : Byte) : Memory → Memory
  | [] => [(a, b)]
  | c :: rest => if a < c.1 then (a, b) :: c :: rest else c :: insertCell a b rest

/-- One byte written; the value an unlisted byte reads as removes the cell. -/
def writeByte (m : Memory) (a : Nat) (b : Byte) : Memory :=
  let others := m.filter fun c => c.1 ≠ a
  if b = 0 then others else insertCell a b others

/-- A run of bytes written from an address list. -/
def writeBytes (m : Memory) (cells : List Host.Cell) : Memory :=
  cells.foldl (fun m c => writeByte m c.1 c.2) m

/-- All 128 bytes of a granule set to zero, as when it is taken from the free list (R1). -/
def zeroGranule (m : Memory) (g : Granule) : Memory :=
  m.filter fun c => c.1 / granuleSize ≠ g.val

/-- The size of the memory: 512 granules of 128 bytes. -/
def memorySize : Nat := 512 * granuleSize

/-- The canonical form of a memory: rising addresses inside the memory, and no cell holding the value an
unlisted byte reads as. -/
abbrev Memory.wf (m : Memory) : Prop :=
  m.Pairwise (fun c d => c.1 < d.1) ∧ ∀ c ∈ m, c.2 ≠ 0 ∧ c.1 < memorySize

/-! ### Holds (R7) -/

/-- Whether the hold set is empty. -/
def Holds.isEmpty (h : Holds) : Bool := h == Holds.none

/-- Whether a station has any hold of its own on the frame: build, intake, read or post (R16). -/
def Holds.heldBy (h : Holds) (p : Station) : Bool :=
  inSet h.build p || inSet h.intake p || inSet h.read p || inSet h.post p

/-- The holds with every hold of one station removed (R22). -/
def Holds.withoutStation (h : Holds) (p : Station) : Holds :=
  { h with build := eraseStation h.build p, intake := eraseStation h.intake p,
           read := eraseStation h.read p, post := eraseStation h.post p }

/-- The holds with the intake hold of one station removed (R10). -/
def Holds.withoutIntake (h : Holds) (p : Station) : Holds :=
  { h with intake := eraseStation h.intake p }

/-! ### Frames -/

/-- The granule count of a frame: the number of granules in its chain (00, Frame lengths). -/
def Frame.granules (f : Frame) : Nat := f.chain.length

/-- The memory address of the frame byte at an offset, if the chain reaches it (R6). -/
def Frame.address (f : Frame) (k : Nat) : Option Nat :=
  match f.chain[k / granuleSize]? with
  | some g => some (g.val * granuleSize + k % granuleSize)
  | none => none

/-- A hold added by R7's rule: to a frame that is not FREE. -/
def Frame.addHold (f : Frame) (add : Holds → Holds) : Frame :=
  if f.state = .free then f else { f with holds := add f.holds }

/-- Holds removed. -/
def Frame.removeHold (f : Frame) (remove : Holds → Holds) : Frame :=
  { f with holds := remove f.holds }

/-- The frame record of a handle. -/
def State.frame (s : State) (h : Handle) : Frame := s.store.frames.get h

/-- A frame record replaced. -/
def State.setFrame (s : State) (h : Handle) (f : Frame) : State :=
  { s with store := { s.store with frames := s.store.frames.set h f } }

/-- A frame record changed in place. -/
def State.modifyFrame (s : State) (h : Handle) (f : Frame → Frame) : State :=
  s.setFrame h (f (s.frame h))

/-- Every frame record passed through a function of its handle's number. -/
def State.mapFrames (s : State) (f : Nat → Frame → Frame) : State :=
  { s with store := { s.store with frames := s.store.frames.mapIdx f } }

/-- The frame byte at an offset (R6); 0 beyond the chain. -/
def State.byteAt (s : State) (h : Handle) (k : Nat) : Byte :=
  match (s.frame h).address k with
  | some a => readByte s.store.mem a
  | none => 0

/-- The frame bytes of a span. -/
def State.bytesAt (s : State) (h : Handle) (offset count : Nat) : List Byte :=
  (List.range count).map fun i => s.byteAt h (offset + i)

/-- The memory cells that a run of frame bytes from an offset is stored in (R6). -/
def Frame.cells (f : Frame) : Nat → List Byte → List Host.Cell
  | _, [] => []
  | k, b :: rest =>
    match f.address k with
    | some a => (a, b) :: f.cells (k + 1) rest
    | none => f.cells (k + 1) rest

/-- A run of bytes stored into a frame from an offset (R6, R115). -/
def State.storeBytes (s : State) (h : Handle) (offset : Nat) (bytes : List Byte) : State :=
  { s with store := { s.store with
      mem := writeBytes s.store.mem ((s.frame h).cells offset bytes) } }

/-- The lowest FREE handle, if any (R4). -/
def lowestFree (frames : Table 128 Frame) : Option Handle :=
  match frames.rows.findIdx? (fun f => f.state = .free) with
  | some i => if h : i < 128 then some ⟨i, h⟩ else none
  | none => none

/-- The number of FREE frame records (R149). -/
def State.freeRecords (s : State) : Nat :=
  (s.store.frames.rows.filter fun f => f.state = .free).length

/-- The charge of a station: the granule counts of the frames it has a hold of its own on, each counted
once (R16). -/
def State.charge (s : State) (p : Station) : Nat :=
  (s.store.frames.rows.map fun f => if f.holds.heldBy p then f.granules else 0).sum

/-- The first `n` granules taken from the head of the free list and zeroed (R1, R2). -/
def State.takeGranules (s : State) (n : Nat) : State :=
  { s with store := { s.store with
      mem := (s.store.freeList.take n).foldl zeroGranule s.store.mem,
      freeList := s.store.freeList.drop n } }

/-! ### Handles and indexes as bytes -/

/-- The handle a byte names, if it is in 0 to 127. -/
def handleOf (b : Byte) : Option Handle :=
  if h : b.toNat < 128 then some ⟨b.toNat, h⟩ else none

/-- The entry index a byte names, if it is in 0 to 63 (R29, R190). -/
def indexOf (b : Byte) : Option EntryIndex :=
  if h : b.toNat < 64 then some ⟨b.toNat, h⟩ else none

/-! ### Build sets (R111, R112) -/

/-- Whether a frame is in a station's build set: BUILDING, with the station's build hold. -/
def Frame.builtBy (f : Frame) (p : Station) : Bool :=
  f.state == .building && inSet f.holds.build p

/-- Whether a handle is in a station's build set (R111). -/
def State.inBuildSet (s : State) (p : Station) (h : Handle) : Bool := (s.frame h).builtBy p

/-- The number of a station's builds (R111). -/
def State.buildCount (s : State) (p : Station) : Nat :=
  (s.store.frames.rows.filter fun f => f.builtBy p).length

/-- The transmit use of a station (R112). -/
def State.transmitUse (s : State) (p : Station) : Nat :=
  s.buildCount p + (s.posts.get p).queue.length + (s.posts.get p).completions.length

/-! ### The state of one station -/

/-- A station's session. -/
def State.session (s : State) (p : Station) : Session := s.sessions.get p

/-- A station's session replaced. -/
def State.setSession (s : State) (p : Station) (v : Session) : State :=
  { s with sessions := s.sessions.set p v }

/-- Whether a station is in session: ACTIVE or SUSPENDED. -/
def State.inSession (s : State) (p : Station) : Bool := (s.session p).state != .offline

/-- Whether a station is ACTIVE. -/
def State.isActive (s : State) (p : Station) : Bool := (s.session p).state == .active

/-- Whether a station is SUSPENDED. -/
def State.isSuspended (s : State) (p : Station) : Bool := (s.session p).state == .suspended

/-- Whether station `t` accepts station `o`: `o` is in its accept set (R52). -/
def State.accepts (s : State) (t o : Station) : Bool := inSet (s.session t).accept o

/-- A station's intake queue replaced. -/
def State.setIntake (s : State) (p : Station) (q : List IntakeEntry) : State :=
  { s with intake := s.intake.set p q }

/-- A station's Post Path replaced. -/
def State.setPosts (s : State) (p : Station) (v : PostPath) : State :=
  { s with posts := s.posts.set p v }

/-- A station's port replaced. -/
def State.setPort (s : State) (p : Station) (v : Port) : State :=
  { s with ports := s.ports.set p v }

/-- A station's draft replaced. -/
def State.setDraft (s : State) (p : Station) (d : Option Contents) : State :=
  { s with table := { s.table with drafts := s.table.drafts.set p d } }

/-- A station's figures in the installed partition record. -/
def State.share (s : State) (p : Station) : Share := s.partition.installed.share.get p

/-- A station's quota in the installed partition record (R17). -/
def State.quota (s : State) (p : Station) : Nat := (s.share p).quota.toNat

/-! ### Steering entries -/

/-- A steering entry. -/
def State.entry (s : State) (i : EntryIndex) : Entry := s.table.entries.get i

/-- A steering entry replaced. -/
def State.setEntry (s : State) (i : EntryIndex) (e : Entry) : State :=
  { s with table := { s.table with entries := s.table.entries.set i e } }

/-- The table generation number raised by one, wrapping from 65 535 to 0 (R40). -/
def State.raiseGeneration (s : State) : State :=
  { s with table := { s.table with generation := s.table.generation + 1 } }

/-- A station's owned count (R28). -/
def State.ownedCount (s : State) (p : Station) : Nat :=
  (s.table.entries.rows.filter fun e => e.owner == some p).length

/-- The lowest FREE entry, if any (R30). -/
def lowestFreeEntry (entries : Table 64 Entry) : Option EntryIndex :=
  match entries.rows.findIdx? (fun e => e.state = .free) with
  | some i => if h : i < 64 then some ⟨i, h⟩ else none
  | none => none

/-! ### The intake queue -/

/-- The entry of a handle in a queue (R95: never the same handle twice). -/
def findIntake (q : List IntakeEntry) (h : Handle) : Option IntakeEntry :=
  q.find? fun e => e.handle = h

/-- The queue without the entry of a handle; the entries behind close the gap (R96). -/
def dropIntake (q : List IntakeEntry) (h : Handle) : List IntakeEntry :=
  q.filter fun e => e.handle ≠ h

/-- The entry of a handle and its intake hold removed together (R96). -/
def State.removeEntry (s : State) (p : Station) (h : Handle) : State :=
  (s.setIntake p (dropIntake (s.intake.get p) h)).modifyFrame h
    fun f => f.removeHold (fun x => x.withoutIntake p)

/-! ### Time -/

/-- The clock brought to an instant, if it lies ahead: an event of that instant has happened (log 2). -/
def State.reach (s : State) (instant : Nat) : State :=
  { s with clock := { s.clock with now := max s.clock.now instant } }

end Sys2Proof.Machine
end

