-- ==== Sys2Proof/Machine/Flags.lean ====
section
/-! DEFINITION. Every event flag and counter computation: raising and clearing flags, ATTN, and saturating
counters with their SATURATED event (Chapter 9). -/

namespace Sys2Proof.Machine

/-! ### Event flags (R165 to R167) -/

/-- The bit of an event flag (Table 11-1). -/
def Flag.bit : Flag → Nat
  | .rxready => 0 | .txdone => 1 | .wake => 2 | .drop => 3 | .expired => 4 | .link => 5
  | .proposal => 6 | .partition => 7 | .abandoned => 8 | .table => 9 | .saturated => 10

/-- The set that holds one flag. -/
def Flag.single (f : Flag) : FlagSet := BitVec.ofNat 11 (2 ^ f.bit)

/-- Whether a flag is in a set of flags. -/
def hasFlag (s : FlagSet) (f : Flag) : Bool := s.getLsbD f.bit

/-- ATTN brought up to date: asserted while a set flag is named in the mask (R167). -/
def Attention.update (a : Attention) : Attention :=
  { a with attn := a.flags &&& a.mask != 0 }

/-- A flag set, with ATTN brought up to date (R165, R167). -/
def Attention.raise (a : Attention) (f : Flag) : Attention :=
  Attention.update { a with flags := a.flags ||| f.single }

/-- The flags cleared, with ATTN brought up to date (R169). -/
def Attention.clearFlags (a : Attention) : Attention :=
  Attention.update { a with flags := 0 }

/-- The mask replaced, with ATTN brought up to date (R168). -/
def Attention.setMask (a : Attention) (m : FlagSet) : Attention :=
  Attention.update { a with mask := m }

/-- A station's Attention state replaced. -/
def State.setAttention (s : State) (p : Station) (a : Attention) : State :=
  { s with attention := s.attention.set p a }

/-- A flag raised at a station; ignored while the station is OFFLINE (R165). -/
def State.raiseFlag (s : State) (f : Flag) (p : Station) : State :=
  if s.inSession p then s.setAttention p ((s.attention.get p).raise f) else s

/-- A flag raised at every station of a set. -/
def State.raiseFlagAt (s : State) (f : Flag) (at_ : StationSet) : State :=
  Station.all.foldl (fun s p => if inSet at_ p then s.raiseFlag f p else s) s

/-- A flag raised at every station that is not OFFLINE. -/
def State.raiseFlagEverywhere (s : State) (f : Flag) : State :=
  Station.all.foldl (fun s p => s.raiseFlag f p) s

/-! ### Counters (R171, R174) -/

/-- The top value of a counter, 4 294 967 295. -/
def counterTop : Nat := 4294967295

/-- A counter with a step added, holding at the top value (R171). -/
def satAdd (c : Word) (step : Nat) : Word :=
  BitVec.ofNat 32 (min (c.toNat + step) counterTop)

/-- Whether a step takes a counter to its top value from a lower one (R174). -/
def reachesTop (c : Word) (step : Nat) : Bool :=
  decide (c.toNat < counterTop ∧ counterTop ≤ c.toNat + step)

/-- A link counter by name. -/
def LinkCounters.get (v : LinkCounters) : LinkCounter → Word
  | .goodFrames => v.goodFrames | .goodBytes => v.goodBytes | .fcsErrors => v.fcsErrors
  | .runts => v.runts | .tooLong => v.tooLong | .noSlot => v.noSlot | .truncated => v.truncated
  | .aborted => v.aborted | .undelivered => v.undelivered | .pauseReceived => v.pauseReceived
  | .pauseSent => v.pauseSent | .framesSent => v.framesSent | .bytesSent => v.bytesSent
  | .linkLost => v.linkLost

/-- A link counter replaced. -/
def LinkCounters.set (v : LinkCounters) (c : LinkCounter) (w : Word) : LinkCounters :=
  match c with
  | .goodFrames => { v with goodFrames := w } | .goodBytes => { v with goodBytes := w }
  | .fcsErrors => { v with fcsErrors := w } | .runts => { v with runts := w }
  | .tooLong => { v with tooLong := w } | .noSlot => { v with noSlot := w }
  | .truncated => { v with truncated := w } | .aborted => { v with aborted := w }
  | .undelivered => { v with undelivered := w } | .pauseReceived => { v with pauseReceived := w }
  | .pauseSent => { v with pauseSent := w } | .framesSent => { v with framesSent := w }
  | .bytesSent => { v with bytesSent := w } | .linkLost => { v with linkLost := w }

/-- A station counter by name. -/
def StationCounters.get (v : StationCounters) : StationCounter → Word
  | .delivered => v.delivered | .wakeDeliveries => v.wakeDeliveries
  | .queueFullDrops => v.queueFullDrops | .quotaDrops => v.quotaDrops
  | .asleepDrops => v.asleepDrops | .expired => v.expired | .posted => v.posted
  | .localDeliveries => v.localDeliveries | .sent => v.sent | .contained => v.contained
  | .cancelled => v.cancelled

/-- A station counter replaced. -/
def StationCounters.set (v : StationCounters) (c : StationCounter) (w : Word) : StationCounters :=
  match c with
  | .delivered => { v with delivered := w } | .wakeDeliveries => { v with wakeDeliveries := w }
  | .queueFullDrops => { v with queueFullDrops := w } | .quotaDrops => { v with quotaDrops := w }
  | .asleepDrops => { v with asleepDrops := w } | .expired => { v with expired := w }
  | .posted => { v with posted := w } | .localDeliveries => { v with localDeliveries := w }
  | .sent => { v with sent := w } | .contained => { v with contained := w }
  | .cancelled => { v with cancelled := w }

/-- A step given to a link counter; SATURATED at every station in session when it reaches the top
(R171, R174). -/
def State.countLink (s : State) (c : LinkCounter) (step : Nat) : State :=
  let old := s.linkCounters.get c
  let counted := { s with linkCounters := s.linkCounters.set c (satAdd old step) }
  if reachesTop old step then counted.raiseFlagEverywhere .saturated else counted

/-- A step given to a counter of a station; SATURATED at that station when it reaches the top
(R171, R174). -/
def State.countStation (s : State) (p : Station) (c : StationCounter) (step : Nat) : State :=
  let v := s.stationCounters.get p
  let counted := { s with stationCounters := s.stationCounters.set p (v.set c (satAdd (v.get c) step)) }
  if reachesTop (v.get c) step then counted.raiseFlag .saturated p else counted

end Sys2Proof.Machine
end

