-- ==== Sys2Proof/Machine/Operands.lean ====
section
/-! DEFINITION. Every operand form and every layout of Chapter 11: how fields travel on the station ports. -/

namespace Sys2Proof.Machine

/-! ### Encodings shared by all layouts (Table 11-1) -/

/-- A station set as a byte; bits 4 to 7 zero. -/
def setByte (s : StationSet) : Byte := s.setWidth 8

/-- The station set a byte carries; none when any of bits 4 to 7 is set (R190). -/
def setOfByte (b : Byte) : Option StationSet :=
  if b.toNat < 16 then some (b.setWidth 4) else none

/-- A station number as a byte. -/
def stationByte (p : Station) : Byte := BitVec.ofNat 8 p.idx

/-- An origin as a byte. -/
def originByte : Option Origin → Byte
  | some (.station p) => stationByte p
  | some .link => 0x80
  | none => 0

/-- An owner as a byte; FFh absent. -/
def ownerByte : Option Station → Byte
  | some p => stationByte p
  | none => 0xFF

/-- A deciding entry as a byte; FFh none. -/
def decidingByte : Option EntryIndex → Byte
  | some i => BitVec.ofNat 8 i.val
  | none => 0xFF

/-- A session state as a byte. -/
def sessionByte : SessionState → Byte
  | .offline => 0 | .active => 1 | .suspended => 2

/-- The default intake value a byte carries, if it is defined. -/
def intakeOfByte (b : Byte) : Option DefaultIntake :=
  match b.toNat with
  | 0 => some .none
  | 1 => some .broadcast
  | 2 => some .all
  | _ => none

/-- A default intake value as a byte. -/
def intakeByte : DefaultIntake → Byte
  | .none => 0 | .broadcast => 1 | .all => 2

/-- A set of event flags as two bytes; bits 11 to 15 zero. -/
def flagBytes (f : FlagSet) : List Byte := beBytes 2 f.toNat

/-- The set of event flags a two-byte number carries; none when any of bits 11 to 15 is set (R190). -/
def flagsOfHalf (m : Half) : Option FlagSet :=
  if m.toNat < 2048 then some (m.setWidth 11) else none

/-- A yes/no indication as a byte. -/
def yesNo (b : Bool) : Byte := if b then 1 else 0

/-- A two-byte number, most-significant byte first. -/
def halfBytes (h : Half) : List Byte := beBytes 2 h.toNat

/-- A four-byte number, most-significant byte first. -/
def wordBytes (w : Word) : List Byte := beBytes 4 w.toNat

/-- A byte string of zeros. -/
def zeros (n : Nat) : List Byte := List.replicate n 0

/-- One input byte of a command; 0 beyond the input. -/
def inByte (input : List Byte) (k : Nat) : Byte := input.getD k 0

/-- A span of input bytes. -/
def inSpan (input : List Byte) (k n : Nat) : List Byte := (input.drop k).take n

/-- A two-byte field of a command's input. -/
def inHalf (input : List Byte) (k : Nat) : Half := BitVec.ofNat 16 (beNat (inSpan input k 2))

/-! ### Results (Table 11-3) -/

/-- The value of a result code. -/
def Result.byte : Result → Byte
  | .ok => 0x80 | .empty => 0x81 | .busy => 0x82 | .tooLate => 0x83 | .noSession => 0x84
  | .absent => 0x85 | .noRoom => 0x86 | .badHandle => 0x87 | .badArg => 0x88 | .denied => 0x89
  | .stale => 0x8A | .notNeeded => 0x8B

/-- The value of a last result; 8Fh stands for "abandoned". -/
def LastResult.byte : LastResult → Byte
  | .code r => r.byte
  | .abandoned => 0x8F

/-! ### Entry contents (Table 11-6) -/

/-- The value of a scope. -/
def Scope.byte : Scope → Byte
  | .arrivals => 0 | .localPosts => 1 | .both => 2

/-- The scope a byte carries, if it is defined. -/
def scopeOfByte (b : Byte) : Option Scope :=
  match b.toNat with
  | 0 => some .arrivals
  | 1 => some .localPosts
  | 2 => some .both
  | _ => none

/-- The value of an action. -/
def Action.byte : Action → Byte
  | .deliver => 0 | .discard => 1 | .contain => 2

/-- The action a byte carries, if it is defined. -/
def actionOfByte (b : Byte) : Option Action :=
  match b.toNat with
  | 0 => some .deliver
  | 1 => some .discard
  | 2 => some .contain
  | _ => none

/-- The value of an address field. -/
def AddrField.byte : AddrField → Byte
  | .dest => 0 | .src => 1

/-- The address field a byte carries, if it is defined. -/
def addrFieldOfByte (b : Byte) : Option AddrField :=
  match b.toNat with
  | 0 => some .dest
  | 1 => some .src
  | _ => none

/-- The kind byte and the kind parameters. Bucket `b` of a GROUP is bit b mod 8 of byte b div 8, so the
eight bucket bytes are the bucket set least-significant byte first. -/
def MatchKind.bytes : MatchKind → List Byte
  | .address field value => 0 :: field.byte :: beBytes 6 value.toNat
  | .group buckets => 1 :: (beBytes 8 buckets.toNat).reverse
  | .ethertype value => 2 :: halfBytes value
  | .pattern offset template mask =>
    3 :: halfBytes offset ++ [BitVec.ofNat 8 template.length] ++ template ++ mask
  | .all => [4]

/-- The options byte of contents: bit 0 terminal, bit 1 wake, bit 2 origin set present. -/
def Contents.options (c : Contents) : Byte :=
  (if c.terminal then 1 else 0) ||| (if c.wake then 2 else 0) |||
    (if c.originSet.isSome then 4 else 0)

/-- The contents in the layout of Table 11-6; an absent origin set is sent as 00h. -/
def Contents.bytes (c : Contents) : List Byte :=
  [c.precedence, c.scope.byte, c.action.byte, c.options, setByte (c.originSet.getD 0),
   setByte c.targets] ++ c.kind.bytes

/-- The kind and kind parameters that DRAFT data carry, if they are defined (R32): the kind one of five,
the field of an ADDRESS DEST or SRC, the length of a PATTERN 1 to 32. -/
def kindOfBytes (data : List Byte) : Option MatchKind :=
  match (inByte data 6).toNat with
  | 0 =>
    match addrFieldOfByte (inByte data 7) with
    | some field => some (.address field (BitVec.ofNat 48 (beNat (inSpan data 8 6))))
    | none => none
  | 1 => some (.group (BitVec.ofNat 64 (beNat (inSpan data 7 8).reverse)))
  | 2 => some (.ethertype (inHalf data 7))
  | 3 =>
    let n := (inByte data 9).toNat
    if 1 ≤ n ∧ n ≤ 32 then some (.pattern (inHalf data 7) (inSpan data 10 n) (inSpan data (10 + n) n))
    else none
  | 4 => some .all
  | _ => none

/-- The origin set that DRAFT data carry: absent when option bit 2 is clear, and then byte 4 is ignored;
the outer none is an undefined set (Table 11-6, R190). -/
def originSetOfBytes (data : List Byte) : Option (Option StationSet) :=
  if (inByte data 3).getLsbD 2 then (setOfByte (inByte data 4)).map some else some none

/-- The contents that DRAFT data carry, or none when any value is undefined or out of range (R32, R190,
R191: an undefined options bit counts with the undefined values). -/
def contentsOfBytes (data : List Byte) : Option Contents := do
  let scope ← scopeOfByte (inByte data 1)
  let action ← actionOfByte (inByte data 2)
  let originSet ← originSetOfBytes data
  let targets ← setOfByte (inByte data 5)
  let kind ← kindOfBytes data
  if (inByte data 3).toNat < 8 then
    some { precedence := inByte data 0, scope := scope, originSet := originSet, targets := targets,
           action := action, terminal := (inByte data 3).getLsbD 0,
           wake := (inByte data 3).getLsbD 1, kind := kind }
  else none

/-- Whether contents keep the ranges of Table 2-2 that their types do not: the template and mask of a
PATTERN are equally long, 1 to 32 bytes. -/
def Contents.inRange (c : Contents) : Bool :=
  match c.kind with
  | .pattern _ template mask =>
    decide (1 ≤ template.length ∧ template.length ≤ 32 ∧ mask.length = template.length)
  | _ => true

/-! ### Partition record (Table 11-10) -/

/-- One station's four bytes of a partition record. -/
def shareBytes (v : Share) : List Byte := halfBytes v.quota ++ [v.allowance, v.weight]

/-- A partition record in the layout of Table 11-10. -/
def recordBytes (r : PartitionRecord) : List Byte :=
  shareBytes (r.share.get .s0) ++ shareBytes (r.share.get .s1) ++ shareBytes (r.share.get .s2) ++
    shareBytes (r.share.get .s3) ++ [r.reserve] ++ halfBytes r.pauseOn ++ halfBytes r.pauseOff ++
    halfBytes r.quanta ++ halfBytes r.holdLimit

/-- One station's figures in the bytes of a partition record. -/
def shareOfBytes (data : List Byte) (p : Station) : Share :=
  { quota := inHalf data (4 * p.idx), allowance := inByte data (4 * p.idx + 2),
    weight := inByte data (4 * p.idx + 3) }

/-- The partition record that 25 bytes carry. -/
def recordOfBytes (data : List Byte) : PartitionRecord :=
  { share := Per.of (shareOfBytes data), reserve := inByte data 16, pauseOn := inHalf data 17,
    pauseOff := inHalf data 19, quanta := inHalf data 21, holdLimit := inHalf data 23 }

/-! ### Completion entry (Table 11-5) -/

/-- The value of a post's outcome. -/
def PostOutcome.byte : PostOutcome → Byte
  | .sent => 0 | .contained => 1 | .cancelled => 2 | .linkLost => 3

/-- A completion entry's six bytes. -/
def Completion.bytes (c : Completion) : List Byte :=
  [BitVec.ofNat 8 c.handle.val, c.number, c.outcome.byte, BitVec.ofNat 8 c.deliveries] ++
    beBytes 2 c.wireLength

end Sys2Proof.Machine
end

