-- ==== Sys2Proof/Machine/Wire.lean ====
section
/-! DEFINITION. The wire: the frame check sequence, the times of the link, the flow-control frame, and the
bytes of the frame being sent (Chapter 7). -/

namespace Sys2Proof.Machine

/-! ### The check sequence (R138) -/

/-- The generator polynomial of the check sequence, 04C11DB7h. -/
def crcPolynomial : Word := 0x04C11DB7

/-- The register preset to all ones. -/
def crcPreset : Word := BitVec.allOnes 32

/-- One bit taken into the register: the register moves up one power of the polynomial. -/
def crcBit (register : Word) (bit : Bool) : Word :=
  if register.getLsbD 31 != bit then (register <<< 1) ^^^ crcPolynomial else register <<< 1

/-- One byte taken into the register, least-significant bit first. -/
def crcByte (register : Word) (b : Byte) : Word :=
  [0, 1, 2, 3, 4, 5, 6, 7].foldl (fun r i => crcBit r (b.getLsbD i)) register

/-- The check sequence of a register: its complement; bit 31 is the coefficient of the highest power. -/
def checkSequenceOf (register : Word) : Word := ~~~ register

/-- The check sequence of a byte string. -/
def checkSequence (bytes : List Byte) : Word := checkSequenceOf (bytes.foldl crcByte crcPreset)

/-- The four check-sequence bytes on the wire: the coefficient of the highest power is sent first, and
each byte is sent least-significant bit first, so the bits of each byte are reversed. -/
def checkBytes (fcs : Word) : List Byte := (beBytes 4 fcs.toNat).map BitVec.reverse

/-! ### Times on the link (R135, R141, R144) -/

/-- One bit time, in units of `Clock.now`. -/
def Speed.bitTime : Speed → Nat
  | .m100 => 1 | .m10 => 10

/-- One link quantum, 512 bit times. -/
def Speed.quantum (v : Speed) : Nat := 512 * v.bitTime

/-- The time a transmission takes: 8 bit times for each byte of the wire length plus 192 (R141). -/
def Speed.sendTime (v : Speed) (wireLength : Nat) : Nat := (8 * wireLength + 192) * v.bitTime

/-- The refresh time: half of Q link quanta (R144). -/
def Speed.refreshTime (v : Speed) (quanta : Half) : Nat := quanta.toNat * (256 * v.bitTime)

/-! ### Flow-control frames -/

/-- The flow-control address 01-80-C2-00-00-01. -/
def flowAddress : List Byte := [0x01, 0x80, 0xC2, 0x00, 0x00, 0x01]

/-- The 60 bytes of a flow-control frame that the hub builds (R141). -/
def flowFrame (quanta : Half) : List Byte :=
  flowAddress ++ zeros 6 ++ [0x88, 0x08, 0x00, 0x01] ++ halfBytes quanta ++ zeros 42

/-- Whether a stored frame is a flow-control frame (Table 7-3, R139). -/
def State.isFlowControl (s : State) (h : Handle) : Bool :=
  s.bytesAt h 0 6 == flowAddress && s.bytesAt h 12 4 == [0x88, 0x08, 0x00, 0x01]

/-- The quanta value of a received flow-control frame (Table 7-3). -/
def State.flowQuanta (s : State) (h : Handle) : Half := BitVec.ofNat 16 (beNat (s.bytesAt h 16 2))

/-! ### The frame on the wire -/

/-- The bytes of a station frame as sent: the stored bytes, zero bytes up to 60 (R127). -/
def State.sentBytes (s : State) (h : Handle) : List Byte :=
  s.bytesAt h 0 (s.frame h).length ++ zeros (wireLengthOf (s.frame h).length - (s.frame h).length)

/-- The frame bytes on the wire now, with padding, and the check sequence over them; none while the
transmitter is IDLE (R127, R138, R141). -/
def State.onWire (s : State) : Option (List Byte) :=
  match s.mac.tx with
  | .idle => none
  | .station _ h _ => some (s.sentBytes h ++ checkBytes (checkSequence (s.sentBytes h)))
  | .flow q _ => some (flowFrame q ++ checkBytes (checkSequence (flowFrame q)))

end Sys2Proof.Machine
end

