-- ==== Sys2Proof/Machine/Transmitter.lean ====
section
/-! DEFINITION. The Transmit Scheduler's examination, the transmitter's taking of work, the flow-control
generator, and the close of an event: release of the frames that lost their last hold, and the handing of
the free-list length to the generator. -/

namespace Sys2Proof.Machine

/-! ### The scheduler (R125, R126) -/

/-- The scheduler with one station's deficit, credit mark and the pointer written. -/
def Scheduler.write (v : Scheduler) (p : Station) (deficit : Nat) (credited : Bool)
    (pointer : Station) : Scheduler :=
  { pointer := pointer, deficit := v.deficit.set p deficit, credited := v.credited.set p credited }

/-- The deficit a station is examined with: its weight times 256 is added unless it is credited already
(R126, case 2). -/
def Scheduler.creditedDeficit (v : Scheduler) (weights : Per Nat) (p : Station) : Nat :=
  if v.credited.get p then v.deficit.get p else v.deficit.get p + weights.get p * creditPerWeight

/-- The examination of R126, station by station. `heads` holds the wire length of each station's front
post entry, none for an empty queue; `empties` counts the stations passed over in a row under case 1;
the first argument bounds the number of visits. -/
def examine (weights : Per Nat) (heads : Per (Option Nat)) :
    Nat → Nat → Scheduler → Option Station × Scheduler
  | 0, _, v => (none, v)
  | bound + 1, empties, v =>
    let p := v.pointer
    match heads.get p with
    | none =>
      let passed := v.write p 0 false p.next
      if empties + 1 = 4 then (none, passed) else examine weights heads bound (empties + 1) passed
    | some len =>
      let deficit := v.creditedDeficit weights p
      if len ≤ deficit then (some p, v.write p (deficit - len) true p)
      else examine weights heads bound 0 (v.write p deficit false p.next)

/-- The wire length of each station's front post entry (R126). -/
def State.headLengths (s : State) : Per (Option Nat) :=
  Per.of fun p => ((s.posts.get p).queue.head?).map fun e => e.wireLength

/-- The installed weights (R125). -/
def State.weights (s : State) : Per Nat := Per.of fun p => (s.share p).weight.toNat

/-! ### The transmitter (R127, R141, R142) -/

/-- Transmission start of a station's front post entry: it is marked started, its frame receives the wire
hold, and the transmitter enters STATION (R13, R127). -/
def State.startStation (s : State) (speed : Speed) (p : Station) : State :=
  match (s.posts.get p).queue with
  | [] => s
  | e :: rest =>
    let marked := s.setPosts p { s.posts.get p with queue := { e with started := true } :: rest }
    let held := marked.modifyFrame e.handle fun f => f.addHold fun x => { x with wire := true }
    { held with mac := { held.mac with
        tx := .station p e.handle (held.clock.now + speed.sendTime e.wireLength) } }

/-- Start of a flow-control frame: the pending request is served (R141, R142 case 1). -/
def State.startFlow (s : State) (speed : Speed) (quanta : Half) : State :=
  { s with mac := { s.mac with
      tx := .flow quanta (s.clock.now + speed.sendTime minWireLength),
      gen := { s.mac.gen with pending := none } } }

/-- The scheduler asked for a station frame (R142 case 2). -/
def State.askScheduler (s : State) (speed : Speed) : State :=
  let answer := examine s.weights s.headLengths examinationBound 0 s.scheduler
  let examined := { s with scheduler := answer.2 }
  match answer.1 with
  | some p => examined.startStation speed p
  | none => examined

/-- The transmitter takes work, when it is IDLE and the link is UP (R142). -/
def State.takeWork (s : State) : State :=
  match s.mac.link, s.mac.tx with
  | .up speed, .idle =>
    match s.mac.gen.pending, s.mac.pauseUntil with
    | some q, _ => s.startFlow speed q
    | none, none => s.askScheduler speed
    | none, some _ => s
  | _, _ => s

/-! ### The flow-control generator (R144 to R148) -/

/-- A request of the generator: it replaces any request still pending, and is served at once when the
transmitter is IDLE and the link is UP (R144, R147). -/
def State.requestFlow (s : State) (quanta : Half) : State :=
  State.takeWork { s with mac := { s.mac with gen := { s.mac.gen with pending := some quanta } } }

/-- The generator's response to a free-list length (Table 7-6). -/
def State.respond (s : State) (length : Nat) : State :=
  let r := s.partition.installed
  match s.mac.link, s.mac.gen.asserted with
  | .up speed, false =>
    if length < r.pauseOn.toNat then
      State.requestFlow { s with mac := { s.mac with gen := { s.mac.gen with
        asserted := true, refreshAt := some (s.clock.now + speed.refreshTime r.quanta) } } } r.quanta
    else s
  | .up _, true =>
    if r.pauseOff.toNat ≤ length then
      State.requestFlow { s with mac := { s.mac with gen := { s.mac.gen with
        asserted := false, refreshAt := none } } } 0
    else s
  | .down, _ => s

/-! ### The close of an event (R7, R14, R15) -/

/-- Whether a frame lost its last hold between two states of its record. -/
def lostLastHold (before after : Frame) : Bool :=
  !before.holds.isEmpty && after.holds.isEmpty

/-- The chains of the frames that lost their last hold, in ascending order of handle (R15). -/
def releasedChains : List Frame → List Frame → List Granule
  | b :: bs, a :: as =>
    if lostLastHold b a then a.chain ++ releasedChains bs as else releasedChains bs as
  | _, _ => []

/-- The records after release: a frame that lost its last hold becomes FREE (R14). -/
def releaseRecords (before after : Table 128 Frame) : Table 128 Frame :=
  Table.zipWith (fun b a => if lostLastHold b a then Frame.free else a) before after

/-- Every frame that lost its last hold since `before` is released: its record becomes FREE and its
granules are appended to the tail of the free list in chain order, chains in ascending order of handle
(R14, R15). -/
def State.releaseLost (before s : State) : State :=
  { s with store := { s.store with
      freeList := s.store.freeList ++ releasedChains before.store.frames.rows s.store.frames.rows,
      frames := releaseRecords before.store.frames s.store.frames } }

/-- Whether an installation since `before` changed a figure that the generator acts on (R148). -/
def thresholdsChanged (before s : State) : Bool :=
  before.partition.installed.pauseOn != s.partition.installed.pauseOn ||
    before.partition.installed.pauseOff != s.partition.installed.pauseOff ||
    before.partition.installed.quanta != s.partition.installed.quanta

/-- The close of an event that began in `before`: releases, and then the free-list length handed to the
generator once, if the event changed it (R2, R15) or installed other thresholds (R148, R161). -/
def State.closeEvent (before s : State) : State :=
  let released := State.releaseLost before s
  if released.store.freeList.length ≠ before.store.freeList.length ∨ thresholdsChanged before s then
    released.respond released.store.freeList.length
  else released

end Sys2Proof.Machine
end

