-- ==== Sys2Proof/Machine/Classifier.lean ====
section
/-! DEFINITION. Classification of a frame against the steering table (Chapter 3), and admission of a
classified frame to the intake queues (section 5.2). -/

namespace Sys2Proof.Machine

/-! ### Which entries apply, and which match (R48 to R51) -/

/-- Whether contents apply to a frame of an origin: link frames are classified in arrivals scope and posts
in local scope (R45, R46), where the origin set must admit the origin (R48). -/
def Contents.applies (c : Contents) : Origin → Bool
  | .link => c.scope == .arrivals || c.scope == .both
  | .station o =>
    (c.scope == .localPosts || c.scope == .both) &&
      match c.originSet with
      | none => true
      | some set => inSet set o

/-- The contents of an ACTIVE entry that applies to a frame of an origin; FREE and IDLE entries apply to
none (R48). -/
def Entry.applying (e : Entry) (origin : Origin) : Option Contents :=
  match e.state, e.contents with
  | .active, some c => if c.applies origin then some c else none
  | _, _ => none

/-- The bucket number of a destination address: the exclusive OR of its six bytes, low six bits (R50). -/
def bucketOf (dest : List Byte) : Nat := (dest.foldl (fun x b => x ^^^ b) 0).toNat % 64

/-- The masked comparison of a PATTERN, byte by byte (R51). -/
def maskedMatch : List Byte → List Byte → List Byte → Bool
  | b :: bs, t :: ts, m :: ms => (b &&& m == t &&& m) && maskedMatch bs ts ms
  | _, _, _ => true

/-- Whether a frame matches a kind (R49 to R51). -/
def State.kindMatches (s : State) (h : Handle) : MatchKind → Bool
  | .address .dest value => beNat (s.bytesAt h 0 6) == value.toNat
  | .address .src value => beNat (s.bytesAt h 6 6) == value.toNat
  | .group buckets => buckets.getLsbD (bucketOf (s.bytesAt h 0 6))
  | .ethertype value => beNat (s.bytesAt h 12 2) == value.toNat
  | .pattern offset template mask =>
    decide (offset.toNat + template.length ≤ (s.frame h).length) &&
      maskedMatch (s.bytesAt h offset.toNat template.length) template mask
  | .all => true

/-! ### Effective targets (R52) -/

/-- The stations of a target set that an owner's entry may reach at this classification: in session, the
owner itself or accepting it, and in local scope not the origin (R52). -/
def State.effectiveTargets (s : State) (origin : Origin) (owner : Station) (targets : StationSet) :
    StationSet :=
  stationsWhere fun t =>
    inSet targets t && s.inSession t && (t == owner || s.accepts t owner) && origin != .station t

/-! ### The walk (R53 to R57) -/

/-- The items a walk keeps (R53), and the entries it has matched, which each gain one hit (R39). -/
structure Walk where
  delivery : StationSet
  excluded : StationSet
  wakeMark : StationSet
  keepOff : Bool
  last : Option EntryIndex
  matched : List EntryIndex
deriving DecidableEq, Repr

/-- The walk before the first entry (R53). -/
def Walk.start : Walk :=
  { delivery := 0, excluded := 0, wakeMark := 0, keepOff := false, last := none, matched := [] }

/-- The action of a matching entry of an owner (R54 to R56). -/
def Walk.act (w : Walk) (c : Contents) (origin : Origin) (owner : Station) (effective : StationSet) :
    Walk :=
  match c.action with
  | .deliver =>
    let reached := effective &&& ~~~ w.excluded
    { w with delivery := w.delivery ||| reached,
             wakeMark := if c.wake then w.wakeMark ||| reached else w.wakeMark }
  | .discard =>
    { w with excluded := w.excluded ||| effective, delivery := w.delivery &&& ~~~ effective,
             wakeMark := w.wakeMark &&& ~~~ effective }
  | .contain => if origin = .station owner then { w with keepOff := true } else w

/-- A matching entry: its hit, the last match and its action (R53, steps 1 to 3). -/
def Walk.hit (w : Walk) (s : State) (i : EntryIndex) (c : Contents) (origin : Origin)
    (owner : Station) : Walk :=
  Walk.act { w with last := some i, matched := w.matched ++ [i] } c origin owner
    (s.effectiveTargets origin owner c.targets)

/-- The walk over entries in evaluation order; a matching terminal entry ends it (R53, R57). -/
def State.walk (s : State) (h : Handle) (origin : Origin) : List EntryIndex → Walk → Walk
  | [], w => w
  | i :: rest, w =>
    match (s.entry i).applying origin, (s.entry i).owner with
    | some c, some owner =>
      if s.kindMatches h c.kind then
        if c.terminal then w.hit s i c origin owner
        else s.walk h origin rest (w.hit s i c origin owner)
      else s.walk h origin rest w
    | _, _ => s.walk h origin rest w

/-- The precedence of an entry; 0 while its contents are empty, when it is in no order. -/
def State.precedence (s : State) (i : EntryIndex) : Nat :=
  match (s.entry i).contents with
  | some c => c.precedence.toNat
  | none => 0

/-- An entry put in its place by ascending precedence among entries of higher index (R38). -/
def State.placeEntry (s : State) (i : EntryIndex) : List EntryIndex → List EntryIndex
  | [] => [i]
  | j :: rest =>
    if s.precedence i ≤ s.precedence j then i :: j :: rest else j :: s.placeEntry i rest

/-- The ACTIVE entries in evaluation order: ascending precedence, then ascending index (R38). -/
def State.evaluationOrder (s : State) : List EntryIndex :=
  ((List.finRange 64).filter fun i => (s.entry i).state == .active).foldr s.placeEntry []

/-! ### Default intake and suspended stations (R58 to R60) -/

/-- Whether the destination of a frame is all FFh (R58). -/
def State.isBroadcast (s : State) (h : Handle) : Bool :=
  (s.bytesAt h 0 6).all fun b => b == 0xFF

/-- The delivery set from default intake (R58). -/
def State.defaultDelivery (s : State) (h : Handle) (origin : Origin) : StationSet :=
  stationsWhere fun t =>
    s.inSession t && origin != .station t &&
      match (s.session t).defaultIntake with
      | .none => false
      | .broadcast => s.isBroadcast h
      | .all => true

/-- The SUSPENDED stations of a delivery set that carry no wake mark: the asleep drops (R59, R60). -/
def State.asleep (s : State) (delivery wakeMark : StationSet) : StationSet :=
  stationsWhere fun t => inSet delivery t && s.isSuspended t && !inSet wakeMark t

/-- The SUSPENDED stations of a delivery set (R59). -/
def State.suspendedIn (s : State) (delivery : StationSet) : StationSet :=
  stationsWhere fun t => inSet delivery t && s.isSuspended t

/-! ### Classification (R53, R61 to R63) -/

/-- The result record of a finished walk (R57 to R61). -/
def State.resultOf (s : State) (h : Handle) (origin : Origin) (w : Walk) : ClassResult :=
  let reached := if w.last.isNone then s.defaultDelivery h origin else w.delivery
  let kept := reached &&& ~~~ s.asleep reached w.wakeMark
  { sequence := s.sequence, generation := s.table.generation, deciding := w.last, delivery := kept,
    wake := s.suspendedIn kept,
    wire := if origin = .link then none
            else some (if w.keepOff then .contained else .wire) }

/-- The asleep drops of a finished walk (R59, R60). -/
def State.asleepOf (s : State) (h : Handle) (origin : Origin) (w : Walk) : StationSet :=
  s.asleep (if w.last.isNone then s.defaultDelivery h origin else w.delivery) w.wakeMark

/-- One hit for each matched entry (R39). -/
def State.raiseHits (s : State) (matched : List EntryIndex) : State :=
  { s with table := { s.table with entries := s.table.entries.mapIdx fun n e =>
      if (matched.map Fin.val).contains n then { e with hits := satAdd e.hits 1 } else e } }

/-- One drop counted at a station, with its DROP flag (R60, R92). -/
def State.countDrop (s : State) (p : Station) (c : StationCounter) : State :=
  (s.countStation p c 1).raiseFlag .drop p

/-- The asleep drops of a classification counted (R60). -/
def State.countAsleep (s : State) (dropped : StationSet) : State :=
  Station.all.foldl (fun s p => if inSet dropped p then s.countDrop p .asleepDrops else s) s

/-- The walk of a frame over the whole table (R53). -/
def State.walkFrame (s : State) (h : Handle) (origin : Origin) : Walk :=
  s.walk h origin s.evaluationOrder Walk.start

/-- One classification: hits, the result record, the sequence counter and the asleep drops (R53, R61 to
R63). -/
def State.classify (s : State) (h : Handle) (origin : Origin) : State :=
  let w := s.walkFrame h origin
  let result := s.resultOf h origin w
  let recorded := (s.raiseHits w.matched).modifyFrame h fun f => { f with result := some result }
  State.countAsleep { recorded with sequence := s.sequence + 1 } (s.asleepOf h origin w)

/-! ### Admission (R91 to R94) -/

/-- An admission at a station (R93). -/
def State.admitAt (s : State) (h : Handle) (wake : Bool) (t : Station) : State :=
  let entry : IntakeEntry := { handle := h, admitted := s.clock.now, wake := wake }
  let queued := s.setIntake t (s.intake.get t ++ [entry])
  let held := queued.modifyFrame h fun f =>
    f.addHold fun x => { x with intake := insertStation x.intake t }
  let counted := (held.countStation t .delivered 1).raiseFlag .rxready t
  if wake then (counted.countStation t .wakeDeliveries 1).raiseFlag .wake t else counted

/-- What admission decides for a frame at a station (Table 5-3). -/
inductive Admission where
  | skipped | queueFull | overQuota | admitted
deriving DecidableEq, Repr

/-- The decision of Table 5-3 for a frame of `granules` granules at a station, first case first (R92). -/
def State.decide (s : State) (granules : Nat) (t : Station) : Admission :=
  if !s.inSession t then .skipped
  else if intakeCapacity ≤ (s.intake.get t).length then .queueFull
  else if s.quota t < s.charge t + granules then .overQuota
  else .admitted

/-- A frame offered to a station: the state after the decision, and the count of admissions so far
raised by one if it was admitted (R92). -/
def State.offer (h : Handle) (wake : StationSet) (acc : State × Nat) (t : Station) : State × Nat :=
  match acc.1.decide (acc.1.frame h).granules t with
  | .skipped => acc
  | .queueFull => (acc.1.countDrop t .queueFullDrops, acc.2)
  | .overQuota => (acc.1.countDrop t .quotaDrops, acc.2)
  | .admitted => (acc.1.admitAt h (inSet wake t) t, acc.2 + 1)

/-- Admission of a classified frame: decided at every station of its recorded delivery set; the number
is the count of stations that admitted it (R91, R94). -/
def State.admission (s : State) (h : Handle) : State × Nat :=
  match (s.frame h).result with
  | none => (s, 0)
  | some r =>
    Station.all.foldl (fun acc t => if inSet r.delivery t then State.offer h r.wake acc t else acc)
      (s, 0)

end Sys2Proof.Machine
end

