-- ==== Sys2Proof/Machine/Agreement.lean ====
section
/-! DEFINITION. The hold limit of the intake queues (section 5.6), and the Partition Unit's installation,
abandonment and departures (Chapter 8). -/

namespace Sys2Proof.Machine

/-! ### The hold limit (R105, R106, R108) -/

/-- The expiry instant of an entry under a hold limit in ms (R105). -/
def IntakeEntry.expiry (e : IntakeEntry) (limit : Half) : Nat :=
  e.admitted + limit.toNat * unitsPerMs

/-- The front entries of a queue whose wait has reached a hold limit at an instant (R106). -/
def expiredFront (q : List IntakeEntry) (limit : Half) (now : Nat) : List IntakeEntry :=
  q.takeWhile fun e => e.expiry limit ≤ now

/-- The instant a station's hold-limit timer is set to: the expiry of its front entry while the hold limit
is not 0 and the queue is not empty (R105); none while the timer is stopped. -/
def State.holdDeadline (s : State) (p : Station) : Option Nat :=
  if s.partition.installed.holdLimit = 0 then none
  else (s.intake.get p).head?.map fun e => e.expiry s.partition.installed.holdLimit

/-- The intake holds of a station removed from the frames of some entries (R106). -/
def State.dropIntakeHolds (s : State) (p : Station) (gone : List IntakeEntry) : State :=
  s.mapFrames fun n f =>
    if (gone.map fun e => e.handle.val).contains n then f.removeHold fun x => x.withoutIntake p
    else f

/-- The front entries of a station's queue whose wait has reached the installed hold limit removed with
their intake holds, each counted expired, and EXPIRED set once if there was one (R106, R108). The frames
left with no hold are released at the close of the event. -/
def State.expireQueue (s : State) (p : Station) : State :=
  match expiredFront (s.intake.get p) s.partition.installed.holdLimit s.clock.now with
  | [] => s
  | e :: more =>
    let removed := s.setIntake p ((s.intake.get p).drop (more.length + 1))
    let dropped := removed.dropIntakeHolds p (e :: more)
    (dropped.countStation p .expired (more.length + 1)).raiseFlag .expired p

/-! ### Validity of a partition record (R152) -/

/-- Whether a station's figures lie within Table 8-1. -/
def shareValid (v : Share) : Bool :=
  decide (v.quota.toNat ≤ 512 ∧ v.allowance.toNat ≤ 64 ∧ 1 ≤ v.weight.toNat ∧ v.weight.toNat ≤ 16)

/-- The sum of the four allowances of a record. -/
def allowanceSum (r : PartitionRecord) : Nat :=
  (Station.all.map fun p => (r.share.get p).allowance.toNat).sum

/-- Whether a partition record is valid (R152). -/
def recordValid (r : PartitionRecord) : Bool :=
  (Station.all.all fun p => shareValid (r.share.get p)) &&
    decide (r.reserve.toNat ≤ 64 ∧ r.pauseOn.toNat ≤ 511 ∧ r.pauseOn.toNat < r.pauseOff.toNat ∧
      r.pauseOff.toNat ≤ 512 ∧ 1 ≤ r.quanta.toNat ∧ r.holdLimit.toNat ≤ 4095 ∧
      allowanceSum r ≤ 64)

/-! ### Ending a proposal (R157 to R161) -/

/-- The number after the proposal counter: from 0 and from 65 535 to 1, otherwise one more (R153). -/
def nextProposalNumber (c : Half) : Half := if c = 0xFFFF then 1 else c + 1

/-- The hold limit of an installation acted on: every queue loses its expired front entries if the limit
changed to one that is not 0 (R108, R161). -/
def State.expireAtInstallation (s : State) (oldLimit : Half) : State :=
  if s.partition.installed.holdLimit = oldLimit ∨ s.partition.installed.holdLimit = 0 then s
  else Station.all.foldl (fun s p => s.expireQueue p) s

/-- Installation of a record under a proposal number (R160, R161). The generator compares the free-list
length with the new thresholds at the close of the event (R148). -/
def State.install (s : State) (number : Half) (record : PartitionRecord) : State :=
  let oldLimit := s.partition.installed.holdLimit
  let written := { s with partition := { s.partition with
      installed := record, recordNumber := number, proposal := none,
      lastOutcome := some (.installed number) } }
  (written.expireAtInstallation oldLimit).raiseFlagEverywhere .partition

/-- Abandonment of a proposal: ABANDONED at the proposer and at the required stations, none of them when
OFFLINE (R159). -/
def State.abandon (s : State) (p : Proposal) : State :=
  State.raiseFlagAt { s with partition := { s.partition with
      proposal := none, lastOutcome := some (.abandoned p.number) } } .abandoned
    (insertStation p.required p.proposer)

/-- A proposal kept open with new sets, or installed when the endorsed set equals the required set
(R155, R158, R160). -/
def State.settleProposal (s : State) (p : Proposal) : State :=
  if p.endorsed = p.required then s.install p.number p.record
  else { s with partition := { s.partition with proposal := some p } }

/-- A station leaves the group of ACTIVE stations, by SUSPEND or session end (R158). -/
def State.departActive (s : State) (q : Station) : State :=
  match s.partition.proposal with
  | none => s
  | some p =>
    if p.proposer = q then s.abandon p
    else if inSet p.required q then
      s.settleProposal { p with required := eraseStation p.required q,
                                endorsed := eraseStation p.endorsed q }
    else s

end Sys2Proof.Machine
end

