-- ==== Sys2Proof/Machine/Teardown.lean ====
section
/-! DEFINITION. The teardown at session end (section 4.8), part by part in the order of Table 4-5. -/

namespace Sys2Proof.Machine

/-- Part 1: the transaction in progress on the port, if any, is abandoned: the port enters DISCARD and its
last result becomes "abandoned" with the transaction's command code, or none (R78, R187). -/
def Port.abandon (v : Port) : Port :=
  if v.phase = .idle then v
  else { v with phase := .discard, input := [], result := none, response := [], reading := none,
                lastResult := .abandoned, lastCommand := v.code }

/-- Parts 2 to 4: the station's intake, post and completion queues emptied, its post number 0, and every
hold of the station removed (R79, R22). The frames left with no hold are released at the close. -/
def State.dropStationHolds (s : State) (p : Station) : State :=
  ((s.setIntake p []).setPosts p { queue := [], completions := [], number := 0 }).mapFrames
    fun _ f => f.removeHold fun x => x.withoutStation p

/-- The stations other than the owner that are among an entry's targets and accept the owner (R41). -/
def State.tableEventTargets (s : State) (owner : Station) (targets : StationSet) : StationSet :=
  stationsWhere fun t => inSet targets t && t != owner && s.accepts t owner

/-- The targets of an ACTIVE entry; empty otherwise. -/
def Entry.activeTargets (e : Entry) : StationSet :=
  match e.state, e.contents with
  | .active, some c => c.targets
  | _, _ => 0

/-- Whether any entry a station owns is ACTIVE. -/
def State.ownsActive (s : State) (p : Station) : Bool :=
  s.table.entries.rows.any fun e => e.owner == some p && e.state == .active

/-- The union of the targets of the ACTIVE entries a station owns. -/
def State.ownedTargets (s : State) (p : Station) : StationSet :=
  s.table.entries.rows.foldl
    (fun acc e => if e.owner = some p then acc ||| e.activeTargets else acc) 0

/-- Parts 6 and 7: the draft emptied, every owned entry retired, the generation raised once if one of them
was ACTIVE, and TABLE events on the accept sets still in force (R43, R80). -/
def State.retireOwned (s : State) (p : Station) : State :=
  let events := s.tableEventTargets p (s.ownedTargets p)
  let generation := if s.ownsActive p then s.table.generation + 1 else s.table.generation
  State.raiseFlagAt { s with table :=
      { entries := s.table.entries.mapIdx fun _ e => if e.owner = some p then Entry.free else e,
        drafts := s.table.drafts.set p none,
        generation := generation } } .table events

/-- Parts 8 and 9: the station removed from every accept set, its own accept set empty, its default intake
NONE and its state OFFLINE; the session number is kept (R80, R82, R83). -/
def State.goOffline (s : State) (p : Station) : State :=
  { s with sessions := Per.of fun t =>
      let v := s.session t
      if t = p then { state := .offline, number := v.number, accept := 0, defaultIntake := .none }
      else { v with accept := eraseStation v.accept p } }

/-- Part 11: the station's deficit and credit mark cleared; the pointer is not moved (R82). -/
def State.clearScheduler (s : State) (p : Station) : State :=
  { s with scheduler := { s.scheduler with
      deficit := s.scheduler.deficit.set p 0, credited := s.scheduler.credited.set p false } }

/-- Part 12: the station's flags and mask cleared and ATTN released (R82). -/
def State.clearAttention (s : State) (p : Station) : State := s.setAttention p Attention.reset

/-- The teardown of a station's session, but for its port (Table 4-5, parts 2 to 12). -/
def State.teardown (s : State) (p : Station) : State :=
  let offline := ((s.dropStationHolds p).retireOwned p).goOffline p
  ((offline.departActive p).clearScheduler p).clearAttention p

/-- Session end by loss of PRESENT: the transaction under way abandoned, and the teardown (R78). -/
def State.endSession (s : State) (p : Station) : State :=
  (s.setPort p (s.ports.get p).abandon).teardown p

end Sys2Proof.Machine
end

