-- ==== Sys2Proof/Machine/Port.lean ====
section
/-! DEFINITION. The station port: the summary byte, the fall and rise of select, the session check, and the
command-taken point, which every station command shares (Chapter 10). -/

namespace Sys2Proof.Machine

/-! ### The summary byte (R178, Table 11-4) -/

/-- Whether a proposal awaits a station's endorsement (R153). -/
def State.awaits (s : State) (p : Station) : Bool :=
  match s.partition.proposal with
  | none => false
  | some o => inSet o.required p && !inSet o.endorsed p

/-- The summary byte of a port as the hub stands. -/
def State.summaryByte (s : State) (p : Station) : Byte :=
  BitVec.ofNat 8 (64 * (sessionByte (s.session p).state).toNat +
    32 * (s.attention.get p).attn.toNat +
    16 * (!(s.intake.get p).isEmpty).toNat +
    8 * (!(s.posts.get p).completions.isEmpty).toNat +
    4 * (s.awaits p).toNat +
    2 * ((s.ports.get p).lastResult != .code .ok).toNat + 1)

/-! ### Select (R177, R178, R181) -/

/-- The port at the start of a transaction, with its captured summary byte. -/
def Port.start (v : Port) (summary : Byte) : Port :=
  { v with phase := .command, summary := summary, code := none, input := [], result := none,
           response := [], reading := none, miso := none }

/-- A fall of select: in IDLE it starts a transaction (R177, R178); no fall can occur in another phase
(log 5). -/
def State.fallSelect (s : State) (p : Station) : State :=
  if (s.ports.get p).phase = .idle then
    s.setPort p ((s.ports.get p).start (s.summaryByte p))
  else s

/-- The port at the end of a transaction; nothing of the transaction is kept but the last result. -/
def Port.finish (v : Port) : Port :=
  { v with phase := .idle, summary := 0, code := none, input := [], result := none, response := [],
           reading := none, miso := none }

/-- The last-result record at an abandonment before the command-taken point (R181, R184). -/
def Port.recordAbandoned (v : Port) : Port :=
  { v with lastResult := .abandoned, lastCommand := v.code }

/-- The read hold that an RXREAD on a port holds removed (R11, R101). -/
def State.dropReadHold (s : State) (p : Station) : State :=
  match (s.ports.get p).reading with
  | none => s
  | some r => s.modifyFrame r.handle fun f =>
      f.removeHold fun x => { x with read := eraseStation x.read p }

/-- A rise of select (R181): before the command-taken point the transaction is abandoned; after it the
read hold of an RXREAD is removed. The port returns to IDLE in every phase. -/
def State.riseSelect (s : State) (p : Station) : State :=
  match (s.ports.get p).phase with
  | .idle => s
  | .command | .input => s.setPort p (s.ports.get p).recordAbandoned.finish
  | _ => State.closeEvent s ((s.dropReadHold p).setPort p (s.ports.get p).finish)

/-! ### The session check (R75, Table 4-3) -/

/-- Whether a session state permits a command (Table 4-3). -/
def permitted : Command → SessionState → Bool
  | .status, _ | .getresult, _ | .linkstatus, _ | .pread, _ => true
  | .join, v => v == .offline
  | .leave, v | .events, v | .setmask, v => v != .offline
  | .resume, v => v == .suspended
  | .snapshot, v => v != .suspended
  | _, v => v == .active

/-! ### The command-taken point (R179, R184, R185) -/

/-- What a command decides beside its effect: its result, the captured response, and the stream of an
RXREAD. -/
structure Reply where
  result : Result
  response : List Byte
  reading : Option ReadStream
deriving DecidableEq, Repr

/-- The answer OK with response data. -/
def answer (response : List Byte) : Reply := { result := .ok, response := response, reading := none }

/-- The number of response bytes of a command answered other than OK: the parts whose length a count or
length field sets are sent at length 0 (R190, Table 11-2). -/
def refusedLength : Command → Nat
  | .status => 16
  | .getresult => 2
  | .linkstatus => 10
  | .pread => 62
  | .join | .setaccept | .claim | .rxpeek | .txopen => 1
  | .publish | .disable | .retire | .txpost => 2
  | .tread => 10
  | .txdone => 6
  | .propose => 3
  | .events => 4
  | .snapshot => 100
  | _ => 0

/-- The answer of a command that a check refused, or that found its queue empty: zeros (R180, R190). -/
def refuse (c : Command) (r : Result) : Reply :=
  { result := r, response := zeros (refusedLength c), reading := none }

/-- The port after the command-taken point of a command with its input bytes: TURNAROUND or RESULT by the
command's type, the result and response captured, and the last-result record written, but for GETRESULT
(R179, R180, R184, R185). -/
def Port.taken (v : Port) (c : Command) (input : List Byte) (r : Reply) : Port :=
  { v with
    phase := if c.isRead then .turnaround else .result
    code := some c.code
    input := input
    result := some r.result
    response := r.response
    reading := r.reading
    lastResult := if c = .getresult then v.lastResult else .code r.result
    lastCommand := if c = .getresult then v.lastCommand else some c.code
    miso := some (if input.isEmpty then v.summary else 0) }

/-- A command's checks and effect with its session check in front of them (R75, R179). -/
def checked (c : Command) (p : Station) (effect : State → State × Reply) (s : State) :
    State × Reply :=
  if permitted c (s.session p).state then effect s else (s, refuse c .noSession)

/-- The command-taken point of a command on a port (R179). -/
def State.takeCommand (s : State) (p : Station) (c : Command) (input : List Byte)
    (effect : State → State × Reply) : State :=
  let out := checked c p effect s
  out.1.setPort p ((out.1.ports.get p).taken c input out.2)

/-! ### A command as a row of the table (log 6) -/

/-- Whether the transaction under way on a port can go on to carry a command with these input bytes: its
command byte is still to come, or it is that command and the bytes received so far are the first of
these. -/
def Port.carries (v : Port) (code : Byte) (input : List Byte) : Bool :=
  match v.phase with
  | .command => true
  | .input => v.code == some code && v.input.isPrefixOf input
  | _ => false

/-- The port events that lie before a command's taken point and that the queue did not hold: a transaction
that cannot carry the command ends by a rise of select, and the command's own starts by a fall (log 6). -/
def State.openFor (s : State) (p : Station) (code : Byte) (input : List Byte) : State :=
  if (s.ports.get p).carries code input then s else (s.riseSelect p).fallSelect p

/-- A station command of the table: the command-taken point of a transaction on the port of station `p`
that carries the command with these input bytes. -/
def State.command (s : State) (p : Station) (c : Command) (input : List Byte)
    (effect : State → State × Reply) : State :=
  (s.openFor p c.code input).takeCommand p c input effect

/-! ### Undefined command codes (R182) -/

/-- The port after the completion of a command byte that names no defined command. -/
def Port.undefined (v : Port) (code : Byte) : Port :=
  { v with phase := .result, code := some code, input := [], result := some .badArg, response := [],
           reading := none, lastResult := .code .badArg, lastCommand := some code,
           miso := some v.summary }

/-- An undefined command byte taken on a port: no session check, and no effect at any block. -/
def State.takeUndefined (s : State) (p : Station) (code : Byte) : State :=
  s.setPort p ((s.ports.get p).undefined code)

end Sys2Proof.Machine
end

