-- ==== Sys2Proof/Machine/Intake.lean ====
section
/-! DEFINITION. The intake commands and the hold-limit expiry: RXPEEK, RXREAD with its stream and its last
requested byte, RXRELEASE, HOLD_LIMIT_EXPIRY (Chapter 5). -/

namespace Sys2Proof.Machine

/-! ### RXPEEK (R98, R99) -/

/-- The wait of an entry at an instant, in whole milliseconds rounded down, holding at 65 535 (Table
5-4). -/
def IntakeEntry.waitMs (e : IntakeEntry) (now : Nat) : Nat :=
  min ((now - e.admitted) / unitsPerMs) 65535

/-- The classification fields of a descriptor: sequence, generation and deciding entry (Table 11-5). The
frame of an entry is always classified (R99). -/
def resultBytes : Option ClassResult → List Byte
  | some r => wordBytes r.sequence ++ halfBytes r.generation ++ [decidingByte r.deciding]
  | none => zeros 6 ++ [decidingByte none]

/-- The descriptor of an intake entry (Table 5-4, Table 11-5). -/
def State.descriptor (s : State) (e : IntakeEntry) : List Byte :=
  let f := s.frame e.handle
  [BitVec.ofNat 8 e.handle.val] ++ beBytes 2 f.length ++ [originByte f.origin] ++ resultBytes f.result ++
    [yesNo e.wake] ++ beBytes 2 (e.waitMs s.clock.now)

/-- RXPEEK: the count, then the queue (R98). -/
def rxpeekEffect (p : Station) (count : Byte) (s : State) : State × Reply :=
  let q := s.intake.get p
  if count.toNat = 0 ∨ intakeCapacity < count.toNat then (s, refuse .rxpeek .badArg)
  else if q = [] then (s, refuse .rxpeek .empty)
  else (s, answer (BitVec.ofNat 8 q.length :: (q.take count.toNat).flatMap s.descriptor))

/-- RXPEEK on the port of `p` (R98). -/
def execRxpeek (p : Station) (count : Byte) (s : State) : Host.Outcome State Fault Refusal :=
  .next (s.command p .rxpeek [count] (rxpeekEffect p count))

/-! ### RXREAD (R100, R101) -/

/-- The handle of an entry of a station's intake queue that a byte names (R100, R103). -/
def State.queuedHandle (s : State) (p : Station) (handle : Byte) : Option Handle :=
  match handleOf handle with
  | some h => if (findIntake (s.intake.get p) h).isSome then some h else none
  | none => none

/-- Whether the offset, count and release byte of an RXREAD are in range for a frame length (R100, check
2; R190). -/
def readInRange (offset count : Half) (release : Byte) (length : Nat) : Bool :=
  decide (offset.toNat ≤ 1513 ∧ 1 ≤ count.toNat ∧ count.toNat ≤ maxLength ∧ release.toNat ≤ 1 ∧
    offset.toNat + count.toNat ≤ length)

/-- The read hold of a station added to a frame (R11). -/
def State.addReadHold (s : State) (p : Station) (h : Handle) : State :=
  s.modifyFrame h fun f => f.addHold fun x => { x with read := insertStation x.read p }

/-- RXREAD: the handle, then the ranges; the data is read as it is shifted out (R100, R101). -/
def rxreadEffect (p : Station) (handle : Byte) (offset count : Half) (release : Byte) (s : State) :
    State × Reply :=
  match s.queuedHandle p handle with
  | none => (s, refuse .rxread .badHandle)
  | some h =>
    if readInRange offset count release (s.frame h).length then
      (s.addReadHold p h,
        { result := .ok, response := [],
          reading := some { handle := h, offset := offset.toNat, count := count.toNat,
                            release := release == 1, sent := 0 } })
    else (s, refuse .rxread .badArg)

/-- RXREAD on the port of `p` (R100). -/
def execRxread (p : Station) (handle : Byte) (offset count : Half) (release : Byte) (s : State) :
    Host.Outcome State Fault Refusal :=
  .next (s.command p .rxread ([handle] ++ halfBytes offset ++ halfBytes count ++ [release])
    (rxreadEffect p handle offset count release))

/-! ### The stream of an RXREAD (R101, R102) -/

/-- Whether an RXREAD makes a release at its last requested byte: its release flag is set and its span
reaches the frame's end (R102). -/
def State.releasesAtEnd (s : State) (r : ReadStream) : Bool :=
  r.release && r.offset + r.count == (s.frame r.handle).length

/-- The release of R102: the entry, if it still stands in the queue, and its intake hold are removed. -/
def State.releaseRead (s : State) (p : Station) (r : ReadStream) : State :=
  if s.releasesAtEnd r ∧ (findIntake (s.intake.get p) r.handle).isSome then s.removeEntry p r.handle
  else s

/-- The port after the last requested byte of an RXREAD (R101, R102). -/
def Port.sentLast (v : Port) (r : ReadStream) (b : Byte) : Port :=
  { v with phase := .discard, reading := some { r with sent := r.count }, miso := some b }

/-- The last requested byte of an RXREAD shifted out on a port (R101, R102). -/
def State.shiftLast (s : State) (p : Station) (r : ReadStream) : State :=
  let b := s.byteAt r.handle (r.offset + r.count - 1)
  State.closeEvent s ((s.setPort p ((s.ports.get p).sentLast r b)).releaseRead p r)

/-- The next byte of an RXREAD shifted out on a port (R101). -/
def State.shiftRead (s : State) (p : Station) (r : ReadStream) : State :=
  if r.count ≤ r.sent + 1 then s.shiftLast p r
  else
    s.setPort p { s.ports.get p with reading := some { r with sent := r.sent + 1 },
                                     miso := some (s.byteAt r.handle (r.offset + r.sent)) }

/-- The RXREAD of a port whose last requested byte is still to be shifted out, if there is one. -/
def Port.streaming (v : Port) : Option ReadStream :=
  match v.phase with
  | .turnaround | .result | .output => v.reading.filter fun r => r.sent < r.count
  | _ => none

/-- LAST_REQUESTED_BYTE: the last requested byte of the RXREAD under way on the port of `p` is shifted out;
the bytes before it, if any are still to come, went out before it (log 6). On a port with no such byte to
come the event cannot occur (log 5). -/
def execLastRequestedByte (p : Station) (s : State) : Host.Outcome State Fault Refusal :=
  match (s.ports.get p).streaming with
  | some r => .next (s.shiftLast p r)
  | none => .next s

/-! ### RXRELEASE (R103) -/

/-- RXRELEASE: the entry and its intake hold are removed (R103). -/
def rxreleaseEffect (p : Station) (handle : Byte) (s : State) : State × Reply :=
  match s.queuedHandle p handle with
  | none => (s, refuse .rxrelease .badHandle)
  | some h => (State.closeEvent s (s.removeEntry p h), answer [])

/-- RXRELEASE on the port of `p` (R103). -/
def execRxrelease (p : Station) (handle : Byte) (s : State) : Host.Outcome State Fault Refusal :=
  .next (s.command p .rxrelease [handle] (rxreleaseEffect p handle))

/-! ### The hold limit (R105, R106) -/

/-- HOLD_LIMIT_EXPIRY: the timer of an intake queue expires at the instant it is set to (R106); a stopped
timer does not expire (log 5). -/
def execHoldLimitExpiry (p : Station) (s : State) : Host.Outcome State Fault Refusal :=
  match s.holdDeadline p with
  | some t => .next (State.closeEvent s ((s.reach t).expireQueue p))
  | none => .next s

end Sys2Proof.Machine
end

