-- ==== Sys2Proof/Machine/Clock.lean ====
section
/-! DEFINITION. What the hub does by itself while no command waits: the events of its own that are due, the
free choice among them, and the passing of time (log 2, log 3). -/

namespace Sys2Proof.Machine

/-- An event in a list if its instant has come. -/
def dueAt (now : Nat) (instant : Option Nat) (event : Instr) : List Instr :=
  match instant with
  | some t => if t ≤ now then [event] else []
  | none => []

/-- The end of the transmission under way, if it is due (R141). -/
def State.dueTransmission (s : State) : List Instr :=
  match s.mac.tx with
  | .idle => []
  | .station _ _ endsAt => dueAt s.clock.now (some endsAt) .transmissionComplete
  | .flow _ endsAt => dueAt s.clock.now (some endsAt) .flowControlComplete

/-- The events of the hub's own that are due: the comparison of the PHY inputs (R134, R135), the end of a
transmission (R141), the pause and refresh timers (R140, R146), the hold-limit timers (R105) and the
proposal's expiry (R157). -/
def State.dueEvents (s : State) : List Instr :=
  (if s.mac.comparePending then [.linkInputCompare] else []) ++
    s.dueTransmission ++
    dueAt s.clock.now s.mac.pauseUntil .pauseTimerExpiry ++
    dueAt s.clock.now s.mac.gen.refreshAt .refreshTimerExpiry ++
    Station.all.flatMap (fun p => dueAt s.clock.now (s.holdDeadline p) (.holdLimitExpiry p)) ++
    dueAt s.clock.now (s.partition.proposal.map fun o => o.expiry) .proposalExpiry

/-- The place among `n` events of the one taken first: a free value (log 3). -/
def State.dueIndex (s : State) (n : Nat) : Nat := Config.dueChoice s.clock.choices % n

/-- The event that is taken, with the hub as it is taken: the only one that is due, or a free choice among
several, which advances the counter of choices; none while nothing is due. -/
def State.nextDue (s : State) : Option (Instr × State) :=
  match s.dueEvents with
  | [] => none
  | [c] => some (c, s)
  | c :: more =>
    some ((c :: more).getD (s.dueIndex (more.length + 1)) c,
      { s with clock := { s.clock with choices := s.clock.choices + 1 } })

/-- One unit of time passes. -/
def State.tick (s : State) : State := { s with clock := { s.clock with now := s.clock.now + 1 } }

end Sys2Proof.Machine
end

