-- ==== Sys2Proof/Machine/AttentionCommands.lean ====
section
/-! DEFINITION. The attention and statistics commands: EVENTS, SETMASK, SNAPSHOT (Chapter 9). -/

namespace Sys2Proof.Machine

/-- EVENTS: flags and mask are captured, and the flags cleared (R169). -/
def eventsEffect (p : Station) (s : State) : State × Reply :=
  (s.setAttention p (s.attention.get p).clearFlags,
    answer (flagBytes (s.attention.get p).flags ++ flagBytes (s.attention.get p).mask))

/-- EVENTS on the port of `p` (R169). -/
def execEvents (p : Station) (s : State) : Host.Outcome State Fault Refusal :=
  .next (s.command p .events [] (eventsEffect p))

/-- SETMASK: the mask replaced whole, unless it names a flag that does not exist (R168, R190). -/
def setmaskEffect (p : Station) (mask : Half) (s : State) : State × Reply :=
  match flagsOfHalf mask with
  | some m => (s.setAttention p ((s.attention.get p).setMask m), answer [])
  | none => (s, refuse .setmask .badArg)

/-- SETMASK on the port of `p` (R168). -/
def execSetmask (p : Station) (mask : Half) (s : State) : Host.Outcome State Fault Refusal :=
  .next (s.command p .setmask (halfBytes mask) (setmaskEffect p mask))

/-- The eleven station counters in snapshot order (section 11.7). -/
def StationCounters.bytes (v : StationCounters) : List Byte :=
  [v.delivered, v.wakeDeliveries, v.queueFullDrops, v.quotaDrops, v.asleepDrops, v.expired, v.posted,
   v.localDeliveries, v.sent, v.contained, v.cancelled].flatMap wordBytes

/-- The fourteen link counters in snapshot order (section 11.7). -/
def LinkCounters.bytes (v : LinkCounters) : List Byte :=
  [v.goodFrames, v.goodBytes, v.fcsErrors, v.runts, v.tooLong, v.noSlot, v.truncated, v.aborted,
   v.undelivered, v.pauseReceived, v.pauseSent, v.framesSent, v.bytesSent, v.linkLost].flatMap wordBytes

/-- SNAPSHOT: all 25 counters are captured, and with the clear option the station's are set to 0 (R175). -/
def snapshotEffect (p : Station) (option : Byte) (s : State) : State × Reply :=
  let reply := answer ((s.stationCounters.get p).bytes ++ s.linkCounters.bytes)
  match option.toNat with
  | 0 => (s, reply)
  | 1 => ({ s with stationCounters := s.stationCounters.set p .zero }, reply)
  | _ => (s, refuse .snapshot .badArg)

/-- SNAPSHOT on the port of `p` (R175). -/
def execSnapshot (p : Station) (option : Byte) (s : State) : Host.Outcome State Fault Refusal :=
  .next (s.command p .snapshot [option] (snapshotEffect p option))

end Sys2Proof.Machine
end

