-- ==== Sys2Proof/Machine/Partition.lean ====
section
/-! DEFINITION. The partition commands and the proposal's expiry: PROPOSE, ENDORSE, OBJECT, PREAD,
PROPOSAL_EXPIRY (Chapter 8). -/

namespace Sys2Proof.Machine

/-! ### PROPOSE (R154) -/

/-- The stations a PROPOSE requires: the ACTIVE ones other than the proposer (R154). -/
def State.requiredFor (s : State) (p : Station) : StationSet :=
  stationsWhere fun t => s.isActive t && t != p

/-- A proposal as it opens (Table 8-3, R154). -/
def State.newProposal (s : State) (p : Station) (record : PartitionRecord) : Proposal :=
  { number := nextProposalNumber s.partition.counter, proposer := p, record := record,
    required := s.requiredFor p, endorsed := 0, expiry := s.clock.now + proposalLife }

/-- The proposal counter advanced (R153). -/
def State.advanceCounter (s : State) : State :=
  { s with partition := { s.partition with counter := nextProposalNumber s.partition.counter } }

/-- A PROPOSE that passed its checks: installed at once when no station is required, opened otherwise with
PROPOSAL at each required station (R154). -/
def State.propose (s : State) (p : Station) (record : PartitionRecord) : State :=
  let o := s.newProposal p record
  if o.required = 0 then s.advanceCounter.install o.number record
  else
    State.raiseFlagAt
      { s.advanceCounter with partition := { s.advanceCounter.partition with proposal := some o } }
      .proposal o.required

/-- PROPOSE: BUSY while a proposal is open, then validity (R154). The response is the number and the mark,
0 OPEN or 1 INSTALLED. -/
def proposeEffect (p : Station) (record : PartitionRecord) (s : State) : State × Reply :=
  if s.partition.proposal.isSome then (s, refuse .propose .busy)
  else if recordValid record then
    (State.closeEvent s (s.propose p record),
      answer (halfBytes (nextProposalNumber s.partition.counter) ++
        [yesNo (s.requiredFor p == 0)]))
  else (s, refuse .propose .badArg)

/-- PROPOSE on the port of `p` (R154). -/
def execPropose (p : Station) (record : PartitionRecord) (s : State) :
    Host.Outcome State Fault Refusal :=
  .next (s.command p .propose (recordBytes record) (proposeEffect p record))

/-! ### ENDORSE and OBJECT (R155, R156) -/

/-- The open proposal that a number names and a station's voice is needed for: STALE or NOTNEEDED otherwise
(R155, R156). -/
def State.voice (s : State) (p : Station) (number : Half) : Except Result Proposal :=
  match s.partition.proposal with
  | none => .error .stale
  | some o =>
    if o.number ≠ number then .error .stale
    else if inSet o.required p && !inSet o.endorsed p then .ok o
    else .error .notNeeded

/-- ENDORSE: the station joins the endorsed set, and the record installs when the set is complete (R155). -/
def endorseEffect (p : Station) (number : Half) (s : State) : State × Reply :=
  match s.voice p number with
  | .error r => (s, refuse .endorse r)
  | .ok o =>
    (State.closeEvent s (s.settleProposal { o with endorsed := insertStation o.endorsed p }),
      answer [])

/-- ENDORSE on the port of `p` (R155). -/
def execEndorse (p : Station) (number : Half) (s : State) : Host.Outcome State Fault Refusal :=
  .next (s.command p .endorse (halfBytes number) (endorseEffect p number))

/-- OBJECT: the proposal is abandoned (R156). -/
def objectEffect (p : Station) (number : Half) (s : State) : State × Reply :=
  match s.voice p number with
  | .error r => (s, refuse .object r)
  | .ok o => (s.abandon o, answer [])

/-- OBJECT on the port of `p` (R156). -/
def execObject (p : Station) (number : Half) (s : State) : Host.Outcome State Fault Refusal :=
  .next (s.command p .object (halfBytes number) (objectEffect p number))

/-! ### PREAD (R163, section 11.6) -/

/-- A time left in whole units rounded up, and at least one while it runs (R149, R157; log 11). -/
def unitsLeft (endsAt now size : Nat) : Nat := max 1 ((endsAt - now + (size - 1)) / size)

/-- The 31 bytes of the open proposal; zeros when none is open. -/
def proposalBytes (now : Nat) : Option Proposal → List Byte
  | none => zeros 31
  | some o =>
    halfBytes o.number ++ [stationByte o.proposer] ++ recordBytes o.record ++
      [setByte o.required, setByte o.endorsed, BitVec.ofNat 8 (unitsLeft o.expiry now unitsPerMs)]

/-- The three bytes of the last outcome. -/
def outcomeBytes : Option ProposalOutcome → List Byte
  | none => zeros 3
  | some (.installed n) => 1 :: halfBytes n
  | some (.abandoned n) => 2 :: halfBytes n

/-- The PREAD response. -/
def State.preadBytes (s : State) : List Byte :=
  halfBytes s.partition.recordNumber ++ recordBytes s.partition.installed ++
    [yesNo s.partition.proposal.isSome] ++ proposalBytes s.clock.now s.partition.proposal ++
    outcomeBytes s.partition.lastOutcome

/-- PREAD changes nothing (R163). -/
def preadEffect (_p : Station) (s : State) : State × Reply := (s, answer s.preadBytes)

/-- PREAD on the port of `p` (R163). -/
def execPread (p : Station) (s : State) : Host.Outcome State Fault Refusal :=
  .next (s.command p .pread [] (preadEffect p))

/-! ### The proposal's expiry (R157) -/

/-- PROPOSAL_EXPIRY: the open proposal is abandoned at its expiry; with none open the event cannot occur
(R157, log 5). -/
def execProposalExpiry (s : State) : Host.Outcome State Fault Refusal :=
  match s.partition.proposal with
  | some o => .next ((s.reach o.expiry).abandon o)
  | none => .next s

end Sys2Proof.Machine
end

