-- ==== Sys2Proof/WellFormed.lean ====
section
/-! DEFINITION. Which terms of `Instr` are commands or events of the table (log 7). -/

namespace Sys2Proof

/-- A term is well formed when its operands can travel in one transaction or event:
an undefined command names no defined code (R182); the bytes of a DRAFT are exactly as many as its kind
and length fields call for (R191); a TXWRITE carries at most 65 535 data bytes, the most its count field
can announce (R191). -/
def Instr.wf : Instr → Bool
  | .undefinedCommand _ code => (Command.ofCode code).isNone
  | .draft _ contents => Command.draft.inputComplete contents
  | .txwrite _ _ _ data => data.length ≤ 65535
  | _ => true

end Sys2Proof
end

