-- ==== Sys2Proof/Machine/Transmit.lean ====
section
/-! DEFINITION. The transmit commands and the end of a station frame's transmission: TXOPEN, TXWRITE,
TXPOST, TXCANCEL, TXDONE, TRANSMISSION_COMPLETE (Chapter 6). -/

namespace Sys2Proof.Machine

/-! ### TXOPEN (R113, R20) -/

/-- The frame record of a build right after TXOPEN (R3, R20). -/
def Frame.build (p : Station) (length : Nat) (chain : List Granule) : Frame :=
  { state := .building, origin := some (.station p), length := length, chain := chain,
    holds := { Holds.none with build := setOf p }, result := none, truncated := false,
    tooLong := false }

/-- The record a TXOPEN for `n` granules would take, if the Frame Store grants it whole: a FREE record,
enough granules, and the charge test (R17, R20). -/
def State.grantBuild (s : State) (p : Station) (n : Nat) : Option Handle :=
  if s.store.freeList.length < n ∨ s.quota p < s.charge p + n then none
  else lowestFree s.store.frames

/-- A granted build (R20). -/
def State.openBuild (s : State) (p : Station) (h : Handle) (length : Nat) : State :=
  (s.takeGranules (granulesFor length)).setFrame h
    (Frame.build p length (s.store.freeList.take (granulesFor length)))

/-- TXOPEN: the length, the transmit allowance, then the Frame Store (R113). -/
def txopenEffect (p : Station) (length : Half) (s : State) : State × Reply :=
  if length.toNat < minPostLength ∨ maxLength < length.toNat then (s, refuse .txopen .badArg)
  else if transmitAllowance ≤ s.transmitUse p then (s, refuse .txopen .noRoom)
  else
    match s.grantBuild p (granulesFor length.toNat) with
    | none => (s, refuse .txopen .noRoom)
    | some h => (State.closeEvent s (s.openBuild p h length.toNat), answer [BitVec.ofNat 8 h.val])

/-- TXOPEN on the port of `p` (R113). -/
def execTxopen (p : Station) (length : Half) (s : State) : Host.Outcome State Fault Refusal :=
  .next (s.command p .txopen (halfBytes length) (txopenEffect p length))

/-! ### TXWRITE (R114, R115) -/

/-- The build of a station that a handle byte names (R114, R116, R121). -/
def State.namedBuild (s : State) (p : Station) (handle : Byte) : Option Handle :=
  match handleOf handle with
  | some h => if s.inBuildSet p h then some h else none
  | none => none

/-- Whether a span of a TXWRITE is in range for a frame length (R114, check 2). -/
def writeInRange (offset count length : Nat) : Bool :=
  decide (count ≠ 0 ∧ offset ≤ 1513 ∧ offset + count ≤ length)

/-- TXWRITE: the handle, then the span; all data bytes are written in one event (R114, R115). -/
def txwriteEffect (p : Station) (handle : Byte) (offset : Half) (data : List Byte) (s : State) :
    State × Reply :=
  match s.namedBuild p handle with
  | none => (s, refuse .txwrite .badHandle)
  | some h =>
    if writeInRange offset.toNat data.length (s.frame h).length then
      (s.storeBytes h offset.toNat data, answer [])
    else (s, refuse .txwrite .badArg)

/-- TXWRITE on the port of `p` (R114); more data than a count field can announce is refused (log 7). -/
def execTxwrite (p : Station) (handle : Byte) (offset : Half) (data : List Byte) (s : State) :
    Host.Outcome State Fault Refusal :=
  if (Instr.txwrite p handle offset data).wf then
    .next (s.command p .txwrite ([handle] ++ halfBytes offset ++ beBytes 2 data.length ++ data)
      (txwriteEffect p handle offset data))
  else .refused .illFormed

/-! ### Completions (R123) -/

/-- A completion entry written at the tail of a station's completion queue, with its TXDONE flag
(R123). -/
def State.complete (s : State) (p : Station) (c : Completion) : State :=
  (s.setPosts p { s.posts.get p with completions := (s.posts.get p).completions ++ [c] }).raiseFlag
    .txdone p

/-- The completion entry of a post entry that ended (R123). -/
def PostEntry.ended (e : PostEntry) (outcome : PostOutcome) (wireLength : Nat) : Completion :=
  { handle := e.handle, number := e.number, outcome := outcome, deliveries := e.deliveries,
    wireLength := wireLength }

/-- The post hold of a station removed from a frame (R12). -/
def State.dropPostHold (s : State) (p : Station) (h : Handle) : State :=
  s.modifyFrame h fun f => f.removeHold fun x => { x with post := eraseStation x.post p }

/-! ### TXPOST (R116 to R118) -/

/-- The flags of a TXPOST (R116). -/
inductive PostFlags where
  | plain | wireOnly | localOnly
deriving DecidableEq, Repr

/-- The flags a TXPOST byte carries; none when it sets another flag, or both (R116, R190). -/
def postFlagsOf (b : Byte) : Option PostFlags :=
  match b.toNat with
  | 0 => some .plain
  | 1 => some .wireOnly
  | 2 => some .localOnly
  | _ => none

/-- Steps 1 and 2 of a post: the record becomes SETTLED and the post number advances (R117). -/
def State.settlePost (s : State) (p : Station) (h : Handle) : State :=
  let settled := s.modifyFrame h fun f => { f with state := .settled }
  settled.setPosts p { settled.posts.get p with number := (settled.posts.get p).number + 1 }

/-- Step 3: classification in local scope and admission, unless WIRE-ONLY is set; the number is the post's
local deliveries (R117). -/
def State.deliverPost (s : State) (p : Station) (h : Handle) (flags : PostFlags) : State × Nat :=
  if flags = .wireOnly then (s, 0) else (s.classify h (.station p)).admission h

/-- Whether a post goes to the wire (R118, Table 6-3). -/
def State.goesToWire (s : State) (h : Handle) (flags : PostFlags) : Bool :=
  match flags with
  | .wireOnly => true
  | .localOnly => false
  | .plain => ((s.frame h).result.bind fun r => r.wire) == some .wire

/-- Step 4 for a frame that goes to the wire: the post hold and the post entry, and the transmitter is told
that a station frame waits (R118, R142). -/
def State.queuePost (s : State) (p : Station) (h : Handle) (deliveries : Nat) : State :=
  let entry : PostEntry := { handle := h, number := (s.posts.get p).number, deliveries := deliveries,
                             wireLength := wireLengthOf (s.frame h).length, started := false }
  let held := s.modifyFrame h fun f => f.addHold fun x => { x with post := insertStation x.post p }
  State.takeWork
    (held.setPosts p { held.posts.get p with queue := (held.posts.get p).queue ++ [entry] })

/-- Step 4 for a frame kept off the wire: a CONTAINED completion (R118). -/
def State.containPost (s : State) (p : Station) (h : Handle) (deliveries : Nat) : State :=
  (s.complete p { handle := h, number := (s.posts.get p).number, outcome := .contained,
                  deliveries := deliveries, wireLength := 0 }).countStation p .contained 1

/-- Step 5: the build hold removed (R117). -/
def State.dropBuildHold (s : State) (p : Station) (h : Handle) : State :=
  s.modifyFrame h fun f => f.removeHold fun x => { x with build := eraseStation x.build p }

/-- Step 6: the counters of the origin (R117, R130). -/
def State.countPost (s : State) (p : Station) (deliveries : Nat) : State :=
  (s.countStation p .posted 1).countStation p .localDeliveries deliveries

/-- A post that passed its checks, with its local deliveries (R117). -/
def State.post (s : State) (p : Station) (h : Handle) (flags : PostFlags) : State × Nat :=
  let delivered := (s.settlePost p h).deliverPost p h flags
  let wired :=
    if delivered.1.goesToWire h flags then delivered.1.queuePost p h delivered.2
    else delivered.1.containPost p h delivered.2
  (State.closeEvent s ((wired.dropBuildHold p h).countPost p delivered.2), delivered.2)

/-- TXPOST: the handle, then the flags (R116, R117). -/
def txpostEffect (p : Station) (handle flags : Byte) (s : State) : State × Reply :=
  match s.namedBuild p handle with
  | none => (s, refuse .txpost .badHandle)
  | some h =>
    match postFlagsOf flags with
    | none => (s, refuse .txpost .badArg)
    | some v =>
      ((s.post p h v).1,
        answer [(s.posts.get p).number + 1, BitVec.ofNat 8 (s.post p h v).2])

/-- TXPOST on the port of `p` (R116). -/
def execTxpost (p : Station) (handle flags : Byte) (s : State) : Host.Outcome State Fault Refusal :=
  .next (s.command p .txpost [handle, flags] (txpostEffect p handle flags))

/-! ### TXCANCEL (R121) -/

/-- The post entry of a handle in a station's post queue. -/
def State.postEntry (s : State) (p : Station) (h : Handle) : Option PostEntry :=
  (s.posts.get p).queue.find? fun e => e.handle = h

/-- A queued post withdrawn: its entry and post hold removed, a CANCELLED completion, and the cancelled
counter (R121, case 2). -/
def State.cancelPost (s : State) (p : Station) (e : PostEntry) : State :=
  let queue := (s.posts.get p).queue.filter fun x => x.handle ≠ e.handle
  let withdrawn := (s.setPosts p { s.posts.get p with queue := queue }).dropPostHold p e.handle
  (withdrawn.complete p (e.ended .cancelled 0)).countStation p .cancelled 1

/-- TXCANCEL: a build, a queued post not started, a started post, or nothing of the station (R121). -/
def txcancelEffect (p : Station) (handle : Byte) (s : State) : State × Reply :=
  match s.namedBuild p handle with
  | some h => (State.closeEvent s (s.dropBuildHold p h), answer [])
  | none =>
    match (handleOf handle).bind (s.postEntry p) with
    | none => (s, refuse .txcancel .badHandle)
    | some e =>
      if e.started then (s, refuse .txcancel .tooLate)
      else (State.closeEvent s (s.cancelPost p e), answer [])

/-- TXCANCEL on the port of `p` (R121). -/
def execTxcancel (p : Station) (handle : Byte) (s : State) : Host.Outcome State Fault Refusal :=
  .next (s.command p .txcancel [handle] (txcancelEffect p handle))

/-! ### TXDONE (R124) -/

/-- TXDONE: the oldest completion entry is removed and returned (R124). -/
def txdoneEffect (p : Station) (s : State) : State × Reply :=
  match (s.posts.get p).completions with
  | [] => (s, refuse .txdone .empty)
  | c :: rest => (s.setPosts p { s.posts.get p with completions := rest }, answer c.bytes)

/-- TXDONE on the port of `p` (R124). -/
def execTxdone (p : Station) (s : State) : Host.Outcome State Fault Refusal :=
  .next (s.command p .txdone [] (txdoneEffect p))

/-! ### The end of a station frame (R128, R129) -/

/-- The end of a station frame reported to its origin, while the frame carries the origin's post hold: the
started front entry leaves the queue and a completion entry is written (R128, R129). The wire length
reported is that of the entry for SENT and 0 for LINKLOST (Table 6-5). -/
def State.reportEnd (s : State) (p : Station) (h : Handle) (outcome : PostOutcome) : State :=
  if inSet (s.frame h).holds.post p then
    match (s.posts.get p).queue with
    | [] => s
    | e :: rest =>
      (s.setPosts p { s.posts.get p with queue := rest }).complete p
        (e.ended outcome (if outcome = .sent then e.wireLength else 0))
  else s

/-- The post and wire holds of a frame whose transmission ended removed, and the transmitter IDLE (R12,
R13, R141). -/
def State.endTransmission (s : State) (p : Station) (h : Handle) : State :=
  let dropped := s.modifyFrame h fun f =>
    f.removeHold fun x => { x with post := eraseStation x.post p, wire := false }
  { dropped with mac := { dropped.mac with tx := .idle } }

/-- The sent counter of the origin, while the frame carries its post hold (R128). -/
def State.countSent (s : State) (p : Station) (h : Handle) : State :=
  if inSet (s.frame h).holds.post p then s.countStation p .sent 1 else s

/-- A station frame sent to its end, before its release and the next taking of work (R128). -/
def State.sendEnded (s : State) (p : Station) (h : Handle) : State :=
  let reported := (s.countSent p h).reportEnd p h .sent
  let counted := (reported.countLink .framesSent 1).countLink .bytesSent
    (wireLengthOf (s.frame h).length)
  counted.endTransmission p h

/-- TRANSMISSION_COMPLETE: the end of a station frame, and the transmitter takes work (R128, R142); with no
station frame being sent the event cannot occur (log 5). -/
def execTransmissionComplete (s : State) : Host.Outcome State Fault Refusal :=
  match s.mac.tx with
  | .station p h endsAt =>
    .next (State.takeWork (State.closeEvent s ((s.reach endsAt).sendEnded p h)))
  | _ => .next s

end Sys2Proof.Machine
end

