-- ==== Sys2Proof/Machine/Link.lean ====
section
/-! DEFINITION. The link side: the link state, the receiver, the pause and refresh timers, the end of a
flow-control frame, and LINKSTATUS (Chapters 5 and 7). -/

namespace Sys2Proof.Machine

/-! ### The move to DOWN (R136) -/

/-- The receiver's state replaced. -/
def State.setReceiver (s : State) (v : Receiver) : State :=
  { s with mac := { s.mac with receiver := v } }

/-- The fill hold removed from a frame (R8). -/
def State.dropFillHold (s : State) (h : Handle) : State :=
  s.modifyFrame h fun f => f.removeHold fun x => { x with fill := false }

/-- The discard of a frame being stored (R88): the counter named rises, the fill hold goes, and the
receiver returns to IDLE. -/
def State.discardFrame (s : State) (h : Handle) (c : LinkCounter) : State :=
  ((s.countLink c 1).dropFillHold h).setReceiver .idle

/-- A reception cut off by link loss (R90): a stored frame is counted aborted, a skipped one ends without
count. -/
def State.cutReception (s : State) : State :=
  match s.mac.receiver with
  | .idle => s
  | .storing h => s.discardFrame h .aborted
  | .skipping => s.setReceiver .idle

/-- A transmission cut short by link loss (R129, R136, R143): a station frame ends LINKLOST, a flow-control
frame is lost without count, and the transmitter is IDLE. -/
def State.loseTransmission (s : State) : State :=
  match s.mac.tx with
  | .idle => s
  | .station p h _ => ((s.reportEnd p h .linkLost).countLink .linkLost 1).endTransmission p h
  | .flow _ _ => { s with mac := { s.mac with tx := .idle } }

/-- The link DOWN with the pause timer zero and the generator CLEAR (R136). -/
def State.takeDown (s : State) : State :=
  { s with mac := { s.mac with link := .down, pauseUntil := none, gen := .clear } }

/-- The move to DOWN (R136), up to the close of its event. -/
def State.moveDown (s : State) : State :=
  ((s.takeDown.cutReception).loseTransmission).raiseFlagEverywhere .link

/-! ### The move to UP (R134, R137) -/

/-- The speed that SPEED100 gives (R134). -/
def State.pinSpeed (s : State) : Speed := if s.pins.speed100 then .m100 else .m10

/-- Whether LINKUP and the full-duplex indication are both asserted (R134). -/
def State.linkInputs (s : State) : Bool := s.pins.linkup && s.pins.fullDuplex

/-- The move to UP: the speed, the LINK flags, the generator's comparison, and then the transmitter takes
work (R137). -/
def State.moveUp (s : State) : State :=
  let up := { s with mac := { s.mac with link := .up s.pinSpeed } }
  let flagged := up.raiseFlagEverywhere .link
  (flagged.respond flagged.store.freeList.length).takeWork

/-- The link state brought into line with the inputs (R134). -/
def State.followInputs (s : State) : State :=
  match s.mac.link, s.linkInputs with
  | .down, true => s.moveUp
  | .up _, false => s.moveDown
  | _, _ => s

/-! ### Changes of the inputs (R134, R135) -/

/-- The level of a PHY input. -/
def State.phyLevel (s : State) : PhyInput → Bool
  | .linkup => s.pins.linkup
  | .fullDuplex => s.pins.fullDuplex

/-- A PHY input at a new level. -/
def State.setPhy (s : State) (input : PhyInput) (level : Bool) : State :=
  match input with
  | .linkup => { s with pins := { s.pins with linkup := level } }
  | .fullDuplex => { s with pins := { s.pins with fullDuplex := level } }

/-- PHY_INPUT_CHANGE: LINKUP or the full-duplex indication changes to a level (R134); at the level it has
already there is no change, and the event cannot occur (log 5). -/
def execPhyInputChange (input : PhyInput) (level : Bool) (s : State) :
    Host.Outcome State Fault Refusal :=
  if s.phyLevel input = level then .next s
  else .next (State.closeEvent s (s.setPhy input level).followInputs)

/-- The link taken DOWN by a change of speed; the comparison that follows is to come (R135). -/
def State.dropForSpeed (s : State) : State :=
  match s.mac.link with
  | .down => s
  | .up _ => State.moveDown { s with mac := { s.mac with comparePending := true } }

/-- SPEED_CHANGE: SPEED100 changes to a level; an UP link is lost and the inputs are to be compared again
(R135); at the level it has already the event cannot occur (log 5). -/
def execSpeedChange (level : Bool) (s : State) : Host.Outcome State Fault Refusal :=
  if s.pins.speed100 = level then .next s
  else
    .next (State.closeEvent s
      (State.dropForSpeed { s with pins := { s.pins with speed100 := level } }))

/-- The comparison of the inputs made: a DOWN link with both inputs asserted moves to UP (R134, R135). -/
def State.compareInputs (s : State) : State :=
  match s.mac.link, s.linkInputs with
  | .down, true => s.moveUp
  | _, _ => s

/-- LINK_INPUT_COMPARE: the comparison that follows a device reset or a speed change (R134, R135); when
none is to come the event cannot occur (log 5). -/
def execLinkInputCompare (s : State) : Host.Outcome State Fault Refusal :=
  if s.mac.comparePending then
    .next (State.compareInputs { s with mac := { s.mac with comparePending := false } })
  else .next s

/-! ### The start of a link frame (R85, R4) -/

/-- A frame record right after the receiver's slot grant (R3, R4). -/
def Frame.filling : Frame :=
  { state := .filling, origin := some .link, length := 0, chain := [],
    holds := { Holds.none with fill := true }, result := none, truncated := false, tooLong := false }

/-- The slot request at a frame start: STORING with the lowest FREE record, or SKIPPING with a no-slot
count (R85). -/
def State.requestSlot (s : State) : State :=
  match lowestFree s.store.frames with
  | some h =>
    { s.setFrame h Frame.filling with mac := { s.mac with receiver := .storing h, rxCrc := crcPreset } }
  | none => (s.countLink .noSlot 1).setReceiver .skipping

/-- FRAME_START: reported only while the link is UP, with the receiver IDLE (R85, R138); otherwise the event
cannot occur (log 5). -/
def execFrameStart (s : State) : Host.Outcome State Fault Refusal :=
  match s.mac.link, s.mac.receiver with
  | .up _, .idle => .next s.requestSlot
  | _, _ => .next s

/-! ### Bytes of a link frame (R86, R19) -/

/-- A byte stored at the offset equal to the length (R6, R86). -/
def State.appendByte (s : State) (h : Handle) (b : Byte) : State :=
  (s.storeBytes h (s.frame h).length [b]).modifyFrame h fun f => { f with length := f.length + 1 }

/-- A granule request of the receiver: granted while the free-list length is above the receive reserve
(R18, R19). -/
def State.requestGranule (s : State) (h : Handle) : Option State :=
  if s.partition.installed.reserve.toNat < s.store.freeList.length then
    some ((s.takeGranules 1).modifyFrame h fun f =>
      { f with chain := f.chain ++ s.store.freeList.take 1 })
  else none

/-- A byte of a frame being stored (R86). -/
def State.storeArrival (s : State) (h : Handle) (b : Byte) : State :=
  let f := s.frame h
  if f.truncated ∨ f.tooLong then s
  else if maxLength ≤ f.length then s.modifyFrame h fun f => { f with tooLong := true }
  else if f.length % granuleSize = 0 then
    match s.requestGranule h with
    | some granted => granted.appendByte h b
    | none => s.modifyFrame h fun f => { f with truncated := true }
  else s.appendByte h b

/-- The byte taken into the MAC's check sequence, whether it is stored or not (R87, R138). -/
def State.checkArrival (s : State) (b : Byte) : State :=
  { s with mac := { s.mac with rxCrc := crcByte s.mac.rxCrc b } }

/-- BYTE_ARRIVAL: a byte of a frame being stored is handled by R86, a byte of a skipped frame is ignored
(R85); with no frame under way the event cannot occur (log 5). -/
def execByteArrival (b : Byte) (s : State) : Host.Outcome State Fault Refusal :=
  match s.mac.receiver with
  | .storing h => .next (State.closeEvent s ((s.checkArrival b).storeArrival h b))
  | _ => .next s

/-! ### The end of a link frame (R87 to R89, R139, R140) -/

/-- The outcome of a frame end (R138). -/
inductive EndOutcome where
  | good | badCheck | cutOff
deriving DecidableEq, Repr

/-- Whether a byte of a frame being stored has arrived: the first one is stored, or sets the truncated flag
(R86). Without one the whole frame had four bytes at most, its check sequence. -/
def Frame.hasArrivals (f : Frame) : Bool := f.length != 0 || f.truncated || f.tooLong

/-- The outcome the MAC reports: bad check sequence on a difference, a receive error, or a frame of four
bytes or fewer, of which no byte but the last four has arrived (R138). -/
def endOutcome (register : Word) (arrivals : Bool) : LinkEnd → EndOutcome
  | .checked fcs rxError =>
    if arrivals ∧ fcs = checkSequenceOf register ∧ rxError = false then .good else .badCheck
  | .noCheck => .badCheck
  | .cutOff => .cutOff

/-- The pause timer's response to a received quanta value (R140). -/
def State.loadPause (s : State) (q : Half) : State :=
  match s.mac.link with
  | .down => s
  | .up speed =>
    if q = 0 then
      if s.mac.pauseUntil.isSome then
        State.takeWork { s with mac := { s.mac with pauseUntil := none } }
      else s
    else { s with mac := { s.mac with
        pauseUntil := some (s.clock.now + q.toNat * speed.quantum) } }

/-- The good-frames and good-bytes counters (R89, step 2). -/
def State.countGood (s : State) (length : Nat) : State :=
  (s.countLink .goodFrames 1).countLink .goodBytes length

/-- The undelivered counter, when no station admitted the frame (R89, step 5). -/
def State.countUndelivered (s : State) (admitted : Nat) : State :=
  if admitted = 0 then s.countLink .undelivered 1 else s

/-- A good frame settled, counted, classified and admitted, and its fill hold removed (R89). -/
def State.settleFrame (s : State) (h : Handle) : State :=
  let settled := s.modifyFrame h fun f =>
    { f with state := .settled, truncated := false, tooLong := false }
  let counted := settled.countGood (s.frame h).length
  let admitted := (counted.classify h .link).admission h
  ((admitted.1.countUndelivered admitted.2).dropFillHold h).setReceiver .idle

/-- The frame-end checks of Table 5-2, the first that applies deciding (R87). -/
def State.endFrame (s : State) (h : Handle) (outcome : EndOutcome) : State :=
  let f := s.frame h
  match outcome with
  | .badCheck => s.discardFrame h .fcsErrors
  | .cutOff => s.discardFrame h .aborted
  | .good =>
    if f.truncated then s.discardFrame h .truncated
    else if f.tooLong then s.discardFrame h .tooLong
    else if f.length < minWireLength then s.discardFrame h .runts
    else if s.isFlowControl h then (s.loadPause (s.flowQuanta h)).discardFrame h .pauseReceived
    else s.settleFrame h

/-- FRAME_END: a stored frame meets the checks, a skipped frame ends without count (R85, R87); with no frame
under way the event cannot occur (log 5). -/
def execFrameEnd (e : LinkEnd) (s : State) : Host.Outcome State Fault Refusal :=
  match s.mac.receiver with
  | .storing h =>
    .next (State.closeEvent s (s.endFrame h (endOutcome s.mac.rxCrc (s.frame h).hasArrivals e)))
  | .skipping => .next (s.setReceiver .idle)
  | .idle => .next s

/-! ### The transmitter's own events (R140, R143, R146) -/

/-- FLOW_CONTROL_COMPLETE: pause sent rises and the transmitter takes work (R143); with no flow-control
frame being sent the event cannot occur (log 5). -/
def execFlowControlComplete (s : State) : Host.Outcome State Fault Refusal :=
  match s.mac.tx with
  | .flow _ endsAt =>
    let counted := (s.reach endsAt).countLink .pauseSent 1
    .next (State.takeWork { counted with mac := { counted.mac with tx := .idle } })
  | _ => .next s

/-- PAUSE_TIMER_EXPIRY: the timer becomes zero and the transmitter takes work (R140); a timer at zero does
not expire (log 5). -/
def execPauseTimerExpiry (s : State) : Host.Outcome State Fault Refusal :=
  match s.mac.pauseUntil with
  | some t =>
    let reached := s.reach t
    .next (State.takeWork { reached with mac := { reached.mac with pauseUntil := none } })
  | none => .next s

/-- REFRESH_TIMER_EXPIRY: the generator requests Q again and restarts the timer (R146); a stopped timer does
not expire (log 5). -/
def execRefreshTimerExpiry (s : State) : Host.Outcome State Fault Refusal :=
  match s.mac.link, s.mac.gen.refreshAt with
  | .up speed, some t =>
    let reached := s.reach t
    let q := reached.partition.installed.quanta
    .next (State.requestFlow { reached with mac := { reached.mac with gen := { reached.mac.gen with
      refreshAt := some (reached.clock.now + speed.refreshTime q) } } } q)
  | _, _ => .next s

/-! ### LINKSTATUS (R149, Table 11-9) -/

/-- The link state and speed bytes. -/
def LinkState.bytes : LinkState → List Byte
  | .down => [0, 0]
  | .up .m10 => [1, 1]
  | .up .m100 => [1, 2]

/-- The transmitter byte. -/
def Transmitter.byte : Transmitter → Byte
  | .idle => 0
  | .station _ _ _ => 1
  | .flow _ _ => 2

/-- The pause timer's time left in link quanta, rounded up; 0 when the timer is zero (R149, log 11). -/
def State.pauseLeft (s : State) : Nat :=
  match s.mac.link, s.mac.pauseUntil with
  | .up speed, some t => unitsLeft t s.clock.now speed.quantum
  | _, _ => 0

/-- The LINKSTATUS response. -/
def State.linkBytes (s : State) : List Byte :=
  s.mac.link.bytes ++ [s.mac.tx.byte] ++ beBytes 2 s.pauseLeft ++
    [yesNo s.mac.gen.asserted, yesNo s.mac.gen.pending.isSome] ++
    beBytes 2 s.store.freeList.length ++ [BitVec.ofNat 8 s.freeRecords]

/-- LINKSTATUS changes nothing (R149). -/
def linkstatusEffect (_p : Station) (s : State) : State × Reply := (s, answer s.linkBytes)

/-- LINKSTATUS on the port of `p` (R149). -/
def execLinkstatus (p : Station) (s : State) : Host.Outcome State Fault Refusal :=
  .next (s.command p .linkstatus [] (linkstatusEffect p))

end Sys2Proof.Machine
end

