-- ==== Sys2Proof/Machine/Sessions.lean ====
section
/-! DEFINITION. Station sessions: JOIN, LEAVE, SUSPEND, RESUME, SETACCEPT and the PRESENT line
(Chapter 4). -/

namespace Sys2Proof.Machine

/-! ### JOIN (R69, R70) -/

/-- The session number after a JOIN: 255 goes to 1, any other value to one more (R70). -/
def nextSessionNumber (n : Byte) : Byte := if n = 255 then 1 else n + 1

/-- The session of a station right after JOIN (R69). -/
def Session.joined (v : Session) : Session :=
  { state := .active, number := nextSessionNumber v.number, accept := 0, defaultIntake := .none }

/-- The start of a session in every block it concerns (R69). -/
def State.startSession (s : State) (p : Station) : State :=
  let draft := (s.setSession p (s.session p).joined).setDraft p none
  let counted := { draft with stationCounters := draft.stationCounters.set p .zero }
  let masked := counted.setAttention p ((counted.attention.get p).setMask 0)
  masked.setPosts p { masked.posts.get p with number := 0 }

/-- JOIN: ABSENT while PRESENT is low, otherwise a new session (R69). -/
def joinEffect (p : Station) (s : State) : State × Reply :=
  if s.pins.present.get p then
    (s.startSession p, answer [nextSessionNumber (s.session p).number])
  else (s, refuse .join .absent)

/-- JOIN on the port of `p` (R69). -/
def execJoin (p : Station) (s : State) : Host.Outcome State Fault Refusal :=
  .next (s.command p .join [] (joinEffect p))

/-! ### LEAVE (R77) -/

/-- LEAVE: the teardown, answered OK; its own transaction is not abandoned (R77). -/
def leaveEffect (p : Station) (s : State) : State × Reply :=
  (State.closeEvent s (s.teardown p), answer [])

/-- LEAVE on the port of `p` (R77). -/
def execLeave (p : Station) (s : State) : Host.Outcome State Fault Refusal :=
  .next (s.command p .leave [] (leaveEffect p))

/-! ### SUSPEND and RESUME (R71, R73) -/

/-- SUSPEND: the station becomes SUSPENDED and leaves the group of ACTIVE stations (R71, R158). -/
def suspendEffect (p : Station) (s : State) : State × Reply :=
  let asleep := s.setSession p { s.session p with state := .suspended }
  (State.closeEvent s (asleep.departActive p), answer [])

/-- SUSPEND on the port of `p` (R71). -/
def execSuspend (p : Station) (s : State) : Host.Outcome State Fault Refusal :=
  .next (s.command p .suspend [] (suspendEffect p))

/-- RESUME: the station becomes ACTIVE (R73). -/
def resumeEffect (p : Station) (s : State) : State × Reply :=
  (s.setSession p { s.session p with state := .active }, answer [])

/-- RESUME on the port of `p` (R73). -/
def execResume (p : Station) (s : State) : Host.Outcome State Fault Refusal :=
  .next (s.command p .resume [] (resumeEffect p))

/-! ### SETACCEPT (R74) -/

/-- The stations of a set that are not OFFLINE. -/
def State.onlineOf (s : State) (set : StationSet) : StationSet :=
  stationsWhere fun t => inSet set t && s.inSession t

/-- SETACCEPT: a station set with bits 4 to 7, or an undefined default intake, or a set with the station
itself is BADARG; the stored set leaves out OFFLINE stations (R74, R190). -/
def setacceptEffect (p : Station) (acceptSet intake : Byte) (s : State) : State × Reply :=
  match intakeOfByte intake, setOfByte acceptSet with
  | some value, some set =>
    if inSet set p then (s, refuse .setaccept .badArg)
    else
      (s.setSession p { s.session p with accept := s.onlineOf set, defaultIntake := value },
        answer [setByte (s.onlineOf set)])
  | _, _ => (s, refuse .setaccept .badArg)

/-- SETACCEPT on the port of `p` (R74). -/
def execSetaccept (p : Station) (acceptSet intake : Byte) (s : State) :
    Host.Outcome State Fault Refusal :=
  .next (s.command p .setaccept [acceptSet, intake] (setacceptEffect p acceptSet intake))

/-! ### The PRESENT line (R68) -/

/-- A level of PRESENT. -/
def State.setPresent (s : State) (p : Station) (level : Bool) : State :=
  { s with pins := { s.pins with present := s.pins.present.set p level } }

/-- PRESENT falls: a session ends; in OFFLINE nothing else changes (R68, R78 to R82). -/
def execPresentFall (p : Station) (s : State) : Host.Outcome State Fault Refusal :=
  let low := s.setPresent p false
  .next (if s.inSession p then State.closeEvent low (low.endSession p) else low)

/-- PRESENT rises: nothing but the level changes (R68). -/
def execPresentRise (p : Station) (s : State) : Host.Outcome State Fault Refusal :=
  .next (s.setPresent p true)

end Sys2Proof.Machine
end

