-- ==== Sys2Proof/Machine/Steering.lean ====
section
/-! DEFINITION. The table commands: CLAIM, DRAFT, PUBLISH, DISABLE, RETIRE and TREAD (Chapter 2). -/

namespace Sys2Proof.Machine

/-- The generation number as response data. -/
def State.generationBytes (s : State) : List Byte := halfBytes s.table.generation

/-! ### CLAIM (R30) -/

/-- An entry right after it is claimed. -/
def Entry.claimed (p : Station) : Entry :=
  { state := .idle, owner := some p, contents := none, hits := 0 }

/-- The entry a CLAIM would take: the named one if it is FREE, the lowest FREE one for any; otherwise the
refusal (R30). -/
def State.claimTarget (s : State) (index : Byte) : Except Result EntryIndex :=
  if index = 0xFF then
    match lowestFreeEntry s.table.entries with
    | some i => .ok i
    | none => .error .noRoom
  else
    match indexOf index with
    | some i => if (s.entry i).state = .free then .ok i else .error .busy
    | none => .error .badArg

/-- CLAIM: the index, then the allowance, then the entry (R29, R30, Table 2-3). -/
def claimEffect (p : Station) (index : Byte) (s : State) : State × Reply :=
  if index ≠ 0xFF ∧ indexOf index = none then (s, refuse .claim .badArg)
  else if (s.share p).allowance.toNat ≤ s.ownedCount p then (s, refuse .claim .denied)
  else
    match s.claimTarget index with
    | .error r => (s, refuse .claim r)
    | .ok i => (s.setEntry i (Entry.claimed p), answer [BitVec.ofNat 8 i.val])

/-- CLAIM on the port of `p` (R30). -/
def execClaim (p : Station) (index : Byte) (s : State) : Host.Outcome State Fault Refusal :=
  .next (s.command p .claim [index] (claimEffect p index))

/-! ### DRAFT (R32) -/

/-- DRAFT: the form of the contents is checked, and the draft replaced whole (R32). -/
def draftEffect (p : Station) (contents : List Byte) (s : State) : State × Reply :=
  match contentsOfBytes contents with
  | some c => (s.setDraft p (some c), answer [])
  | none => (s, refuse .draft .badArg)

/-- DRAFT on the port of `p` (R32); bytes that are not a whole DRAFT are refused (log 7). -/
def execDraft (p : Station) (contents : List Byte) (s : State) : Host.Outcome State Fault Refusal :=
  if (Instr.draft p contents).wf then .next (s.command p .draft contents (draftEffect p contents))
  else .refused .illFormed

/-! ### Owned entries (R33, R35, R36) -/

/-- The entry a station names and owns: BADARG for an index outside 0 to 63, DENIED for an entry that is
FREE or owned by another station (R29, R33, R35, R36). -/
def State.ownedEntry (s : State) (p : Station) (index : Byte) : Except Result EntryIndex :=
  match indexOf index with
  | none => .error .badArg
  | some i =>
    if (s.entry i).state ≠ .free ∧ (s.entry i).owner = some p then .ok i else .error .denied

/-! ### PUBLISH (R33, R34, R41) -/

/-- Whether the span of a pattern lies within a frame of 1514 bytes (R33). -/
def kindPublishable : MatchKind → Bool
  | .pattern offset template _ =>
    decide (offset.toNat ≤ 1513 ∧ offset.toNat + template.length ≤ maxLength)
  | _ => true

/-- Whether contents pass the publish checks (R33, check 2). -/
def Contents.publishable (c : Contents) : Bool :=
  (c.action != .contain || c.scope == .localPosts) && kindPublishable c.kind &&
    (c.originSet.isNone || c.scope != .arrivals)

/-- The draft of a station, if it is valid (R33). -/
def State.validDraft (s : State) (p : Station) : Option Contents :=
  (s.table.drafts.get p).filter Contents.publishable

/-- The effect of a publish that passed its checks (R34, R41). -/
def State.publish (s : State) (p : Station) (i : EntryIndex) (c : Contents) : State :=
  let reached := s.tableEventTargets p (c.targets ||| (s.entry i).activeTargets)
  State.raiseFlagAt
    (s.setEntry i { state := .active, owner := some p, contents := some c, hits := 0 }).raiseGeneration
    .table reached

/-- PUBLISH: the index, ownership, and the draft (R29, R33, R34). -/
def publishEffect (p : Station) (index : Byte) (s : State) : State × Reply :=
  match s.ownedEntry p index with
  | .error r => (s, refuse .publish r)
  | .ok i =>
    match s.validDraft p with
    | none => (s, refuse .publish .badArg)
    | some c => (s.publish p i c, answer (s.publish p i c).generationBytes)

/-- PUBLISH on the port of `p` (R33, R34). -/
def execPublish (p : Station) (index : Byte) (s : State) : Host.Outcome State Fault Refusal :=
  .next (s.command p .publish [index] (publishEffect p index))

/-! ### DISABLE (R35) -/

/-- An owned entry disabled: an ACTIVE one becomes IDLE and raises the generation (R35). -/
def State.disable (s : State) (i : EntryIndex) : State :=
  if (s.entry i).state = .active then
    (s.setEntry i { s.entry i with state := .idle }).raiseGeneration
  else s

/-- DISABLE (R35). -/
def disableEffect (p : Station) (index : Byte) (s : State) : State × Reply :=
  match s.ownedEntry p index with
  | .error r => (s, refuse .disable r)
  | .ok i => (s.disable i, answer (s.disable i).generationBytes)

/-- DISABLE on the port of `p` (R35). -/
def execDisable (p : Station) (index : Byte) (s : State) : Host.Outcome State Fault Refusal :=
  .next (s.command p .disable [index] (disableEffect p index))

/-! ### RETIRE (R36, R41) -/

/-- An owned entry retired: it becomes FREE; an ACTIVE one raises the generation and TABLE events (R36,
R41). -/
def State.retire (s : State) (p : Station) (i : EntryIndex) : State :=
  let reached := s.tableEventTargets p (s.entry i).activeTargets
  let freed := s.setEntry i Entry.free
  if (s.entry i).state = .active then State.raiseFlagAt freed.raiseGeneration .table reached else freed

/-- RETIRE (R36). -/
def retireEffect (p : Station) (index : Byte) (s : State) : State × Reply :=
  match s.ownedEntry p index with
  | .error r => (s, refuse .retire r)
  | .ok i => (s.retire p i, answer (s.retire p i).generationBytes)

/-- RETIRE on the port of `p` (R36). -/
def execRetire (p : Station) (index : Byte) (s : State) : Host.Outcome State Fault Refusal :=
  .next (s.command p .retire [index] (retireEffect p index))

/-! ### TREAD (R37) -/

/-- The value of an entry state (Table 11-7). -/
def EntryState.byte : EntryState → Byte
  | .free => 0 | .idle => 1 | .active => 2

/-- The bytes of an entry's contents; none when they are empty (R191). -/
def Entry.contentsBytes (e : Entry) : List Byte :=
  match e.contents with
  | some c => c.bytes
  | none => []

/-- The TREAD response for an entry (Table 11-7). -/
def Entry.treadBytes (e : Entry) (generation : Half) : List Byte :=
  [e.state.byte, ownerByte e.owner] ++ wordBytes e.hits ++ halfBytes generation ++
    beBytes 2 e.contentsBytes.length ++ e.contentsBytes

/-- TREAD (R37). -/
def treadEffect (_p : Station) (index : Byte) (s : State) : State × Reply :=
  match indexOf index with
  | none => (s, refuse .tread .badArg)
  | some i => (s, answer ((s.entry i).treadBytes s.table.generation))

/-- TREAD on the port of `p` (R37). -/
def execTread (p : Station) (index : Byte) (s : State) : Host.Outcome State Fault Refusal :=
  .next (s.command p .tread [index] (treadEffect p index))

end Sys2Proof.Machine
end

