-- ==== Sys2Proof/Machine/PortEvents.lean ====
section
/-! DEFINITION. The commands and events of the port itself: SELECT_FALL, SELECT_RISE, UNDEFINED_COMMAND,
STATUS, GETRESULT and COMPLETED_BYTE (Chapter 10); and DEVICE_RESET. -/

namespace Sys2Proof.Machine

/-! ### Select (R177, R178, R181) -/

/-- SELECT_FALL on the port of `p` (R177, R178). -/
def execSelectFall (p : Station) (s : State) : Host.Outcome State Fault Refusal :=
  .next (s.fallSelect p)

/-- SELECT_RISE on the port of `p` (R181). -/
def execSelectRise (p : Station) (s : State) : Host.Outcome State Fault Refusal :=
  .next (s.riseSelect p)

/-! ### Undefined commands (R182) -/

/-- UNDEFINED_COMMAND on the port of `p`; a code that names a defined command is refused (R182, log 7). -/
def execUndefinedCommand (p : Station) (code : Byte) (s : State) : Host.Outcome State Fault Refusal :=
  if (Instr.undefinedCommand p code).wf then
    .next (((if (s.ports.get p).phase = .command then s
      else (s.riseSelect p).fallSelect p)).takeUndefined p code)
  else .refused .illFormed

/-! ### STATUS (R186, Table 11-8) -/

/-- The STATUS response. -/
def State.statusBytes (s : State) (p : Station) : List Byte :=
  [sessionByte (s.session p).state, (s.session p).number] ++ beBytes 2 (s.charge p) ++
    halfBytes (s.share p).quota ++ [(s.share p).allowance, BitVec.ofNat 8 (s.ownedCount p),
      BitVec.ofNat 8 (s.posts.get p).queue.length,
      BitVec.ofNat 8 (s.posts.get p).completions.length, BitVec.ofNat 8 (s.buildCount p),
      BitVec.ofNat 8 (s.intake.get p).length] ++
    s.generationBytes ++ flagBytes (s.attention.get p).flags

/-- STATUS changes nothing but the last-result record (R186). -/
def statusEffect (p : Station) (s : State) : State × Reply := (s, answer (s.statusBytes p))

/-- STATUS on the port of `p` (R186). -/
def execStatus (p : Station) (s : State) : Host.Outcome State Fault Refusal :=
  .next (s.command p .status [] (statusEffect p))

/-! ### GETRESULT (R185) -/

/-- The GETRESULT response: the last result and its command code, 00h for none (Table 11-2). -/
def Port.resultBytes (v : Port) : List Byte := [v.lastResult.byte, v.lastCommand.getD 0]

/-- GETRESULT changes nothing (R185). -/
def getresultEffect (p : Station) (s : State) : State × Reply :=
  (s, answer (s.ports.get p).resultBytes)

/-- GETRESULT on the port of `p` (R185). -/
def execGetresult (p : Station) (s : State) : Host.Outcome State Fault Refusal :=
  .next (s.command p .getresult [] (getresultEffect p))

/-! ### A completed byte (R177, R179, R180, R182) -/

/-- The checks and effect of a command with the input bytes it arrived with (Table 11-2). -/
def effectOf (c : Command) (p : Station) (input : List Byte) : State → State × Reply :=
  match c with
  | .status => statusEffect p
  | .getresult => getresultEffect p
  | .linkstatus => linkstatusEffect p
  | .pread => preadEffect p
  | .join => joinEffect p
  | .leave => leaveEffect p
  | .suspend => suspendEffect p
  | .resume => resumeEffect p
  | .setaccept => setacceptEffect p (inByte input 0) (inByte input 1)
  | .claim => claimEffect p (inByte input 0)
  | .draft => draftEffect p input
  | .publish => publishEffect p (inByte input 0)
  | .disable => disableEffect p (inByte input 0)
  | .retire => retireEffect p (inByte input 0)
  | .tread => treadEffect p (inByte input 0)
  | .rxpeek => rxpeekEffect p (inByte input 0)
  | .rxread => rxreadEffect p (inByte input 0) (inHalf input 1) (inHalf input 3) (inByte input 5)
  | .rxrelease => rxreleaseEffect p (inByte input 0)
  | .txopen => txopenEffect p (inHalf input 0)
  | .txwrite => txwriteEffect p (inByte input 0) (inHalf input 1) (input.drop 5)
  | .txpost => txpostEffect p (inByte input 0) (inByte input 1)
  | .txcancel => txcancelEffect p (inByte input 0)
  | .txdone => txdoneEffect p
  | .propose => proposeEffect p (recordOfBytes input)
  | .endorse => endorseEffect p (inHalf input 0)
  | .object => objectEffect p (inHalf input 0)
  | .events => eventsEffect p
  | .setmask => setmaskEffect p (inHalf input 0)
  | .snapshot => snapshotEffect p (inByte input 0)

/-- The port with a byte shifted out. -/
def Port.shift (v : Port) (phase : Phase) (b : Byte) : Port :=
  { v with phase := phase, miso := some b }

/-- A port that has taken in input bytes of a command and waits for more (R180). -/
def Port.await (v : Port) (code : Byte) (input : List Byte) (b : Byte) : Port :=
  { v with phase := .input, code := some code, input := input, miso := some b }

/-- Input bytes received for a command: the command is taken at the last of them (R179, R180); `b` is the
byte shifted out with the one that has just arrived. -/
def State.receive (s : State) (p : Station) (c : Command) (input : List Byte) (b : Byte) : State :=
  if c.inputComplete input then s.takeCommand p c input (effectOf c p input)
  else s.setPort p ((s.ports.get p).await c.code input b)

/-- The command byte completed (R177, R182). -/
def State.receiveCommand (s : State) (p : Station) (mosi : Byte) : State :=
  match Command.ofCode mosi with
  | some c => s.receive p c [] (s.ports.get p).summary
  | none => s.takeUndefined p mosi

/-- An input byte completed (R180). -/
def State.receiveInput (s : State) (p : Station) (mosi : Byte) : State :=
  match (s.ports.get p).code.bind Command.ofCode with
  | some c => s.receive p c ((s.ports.get p).input ++ [mosi]) 0
  | none => s

/-- Whether a transaction of the read type has data to shift out after its result byte. -/
def Port.hasOutput (v : Port) : Bool := !v.response.isEmpty || v.reading.isSome

/-- The result byte completed: OUTPUT while there is response data, DISCARD otherwise (R180). -/
def Port.sendResult (v : Port) : Port :=
  v.shift (if v.hasOutput then .output else .discard) ((v.result.map Result.byte).getD 0)

/-- One byte of captured response data shifted out; DISCARD when it was the last (R180). -/
def Port.sendResponse (v : Port) : Port :=
  match v.response with
  | [] => v.shift .discard 0
  | b :: rest => { v.shift (if rest.isEmpty then .discard else .output) b with response := rest }

/-- A byte completed in OUTPUT: frame data of an RXREAD, or captured response data (R101, R180). -/
def State.sendOutput (s : State) (p : Station) : State :=
  match (s.ports.get p).streaming with
  | some r => s.shiftRead p r
  | none => s.setPort p (s.ports.get p).sendResponse

/-- COMPLETED_BYTE: a byte completed on the port of `p`, handled by the phase (Table 10-1, R177, R180). With
select high there is no byte (R177). -/
def execCompletedByte (p : Station) (mosi : Byte) (s : State) : Host.Outcome State Fault Refusal :=
  match (s.ports.get p).phase with
  | .idle => .next s
  | .command => .next (s.receiveCommand p mosi)
  | .input => .next (s.receiveInput p mosi)
  | .turnaround => .next (s.setPort p ((s.ports.get p).shift .result 0))
  | .result => .next (s.setPort p (s.ports.get p).sendResult)
  | .output => .next (s.sendOutput p)
  | .discard => .next (s.setPort p ((s.ports.get p).shift .discard 0))

/-! ### Device reset (R23, R44, R66, R84, R110, R132, R150, R164, R171, R188) -/

/-- A port after device reset: IDLE, or DISCARD while select is low (R188). -/
def Port.afterReset (v : Port) : Port :=
  if v.phase = .idle then Port.reset else { Port.reset with phase := .discard }

/-- DEVICE_RESET: every block at its reset values; the levels of the input pins, the model's clock and the
queue are not the hub's, and stay. -/
def execDeviceReset (s : State) : Host.Outcome State Fault Refusal :=
  .next { State.reset with
    clock := s.clock, pins := s.pins, pending := s.pending,
    ports := Per.of fun p => (s.ports.get p).afterReset }

end Sys2Proof.Machine
end

