-- ==== Sys2Proof/Machine/Dispatch.lean ====
section
/-! DEFINITION. One arm for each command and event of the table: the meaning it calls. -/

namespace Sys2Proof.Machine

/-- The effect of a command or event on everything but the queue. -/
def exec (i : Instr) (s : State) : Host.Outcome State Fault Refusal :=
  match i with
  | .selectFall p => Sys2Proof.Machine.execSelectFall p s
  | .selectRise p => Sys2Proof.Machine.execSelectRise p s
  | .undefinedCommand p code => Sys2Proof.Machine.execUndefinedCommand p code s
  | .status p => Sys2Proof.Machine.execStatus p s
  | .getresult p => Sys2Proof.Machine.execGetresult p s
  | .linkstatus p => Sys2Proof.Machine.execLinkstatus p s
  | .pread p => Sys2Proof.Machine.execPread p s
  | .join p => Sys2Proof.Machine.execJoin p s
  | .leave p => Sys2Proof.Machine.execLeave p s
  | .suspend p => Sys2Proof.Machine.execSuspend p s
  | .resume p => Sys2Proof.Machine.execResume p s
  | .setaccept p acceptSet intake => Sys2Proof.Machine.execSetaccept p acceptSet intake s
  | .claim p index => Sys2Proof.Machine.execClaim p index s
  | .draft p contents => Sys2Proof.Machine.execDraft p contents s
  | .publish p index => Sys2Proof.Machine.execPublish p index s
  | .disable p index => Sys2Proof.Machine.execDisable p index s
  | .retire p index => Sys2Proof.Machine.execRetire p index s
  | .tread p index => Sys2Proof.Machine.execTread p index s
  | .rxpeek p count => Sys2Proof.Machine.execRxpeek p count s
  | .rxread p handle offset count release => Sys2Proof.Machine.execRxread p handle offset count release s
  | .lastRequestedByte p => Sys2Proof.Machine.execLastRequestedByte p s
  | .rxrelease p handle => Sys2Proof.Machine.execRxrelease p handle s
  | .txopen p length => Sys2Proof.Machine.execTxopen p length s
  | .txwrite p handle offset data => Sys2Proof.Machine.execTxwrite p handle offset data s
  | .txpost p handle flags => Sys2Proof.Machine.execTxpost p handle flags s
  | .txcancel p handle => Sys2Proof.Machine.execTxcancel p handle s
  | .txdone p => Sys2Proof.Machine.execTxdone p s
  | .propose p record => Sys2Proof.Machine.execPropose p record s
  | .endorse p number => Sys2Proof.Machine.execEndorse p number s
  | .object p number => Sys2Proof.Machine.execObject p number s
  | .events p => Sys2Proof.Machine.execEvents p s
  | .setmask p mask => Sys2Proof.Machine.execSetmask p mask s
  | .snapshot p option => Sys2Proof.Machine.execSnapshot p option s
  | .presentFall p => Sys2Proof.Machine.execPresentFall p s
  | .presentRise p => Sys2Proof.Machine.execPresentRise p s
  | .deviceReset => Sys2Proof.Machine.execDeviceReset s
  | .phyInputChange input level => Sys2Proof.Machine.execPhyInputChange input level s
  | .speedChange level => Sys2Proof.Machine.execSpeedChange level s
  | .linkInputCompare => Sys2Proof.Machine.execLinkInputCompare s
  | .frameStart => Sys2Proof.Machine.execFrameStart s
  | .byteArrival b => Sys2Proof.Machine.execByteArrival b s
  | .frameEnd e => Sys2Proof.Machine.execFrameEnd e s
  | .transmissionComplete => Sys2Proof.Machine.execTransmissionComplete s
  | .flowControlComplete => Sys2Proof.Machine.execFlowControlComplete s
  | .pauseTimerExpiry => Sys2Proof.Machine.execPauseTimerExpiry s
  | .refreshTimerExpiry => Sys2Proof.Machine.execRefreshTimerExpiry s
  | .holdLimitExpiry p => Sys2Proof.Machine.execHoldLimitExpiry p s
  | .proposalExpiry => Sys2Proof.Machine.execProposalExpiry s
  | .completedByte p mosi => Sys2Proof.Machine.execCompletedByte p mosi s

end Sys2Proof.Machine
end

