-- ==== Sys2Proof/Machine/Step.lean ====
section
/-! DEFINITION. One step of the hub. -/

namespace Sys2Proof.Machine

/-- The hub with another queue. -/
def State.withPending (s : State) (q : List Instr) : State := { s with pending := q }

/-- One step: the command at the front of the queue is taken; on an empty queue an event of the hub's own
that is due is taken, or one unit of time passes (log 2). -/
def step (s : State) : Host.Outcome State Fault Refusal :=
  match s.pending with
  | c :: rest => exec c (s.withPending rest)
  | [] =>
    match s.nextDue with
    | some (c, t) => exec c t
    | none => .next s.tick

/-- The command that a word spells put at the front of the queue; no word spells one (Decode.lean). -/
def State.withFetchWord (s : State) (nbits w : Nat) : State :=
  match decodeTableWord nbits w with
  | some c => s.withPending (c :: s.pending)
  | none => s

end Sys2Proof.Machine
end

