-- ==== Sys2Proof/Safety.lean ====
section
/-! DEFINITION. The vocabulary of the statements: what a station command carries, what an answered command
leaves, and the invariants of the hub. -/

namespace Sys2Proof.Machine

/-! ### Station commands -/

/-- The session states that permit a command (Table 4-3). -/
def sessionsFor : Command → List SessionState
  | .join => [.offline]
  | .leave | .events | .setmask => [.suspended, .active]
  | .resume => [.suspended]
  | .snapshot => [.offline, .active]
  | .status | .getresult | .linkstatus | .pread => [.offline, .suspended, .active]
  | _ => [.active]

/-- The station, the command and the input bytes of a row that is a station command (Table 11-2). -/
def commandInput : Instr → Option (Station × Command × List Byte)
  | .status p => some (p, .status, [])
  | .getresult p => some (p, .getresult, [])
  | .linkstatus p => some (p, .linkstatus, [])
  | .pread p => some (p, .pread, [])
  | .join p => some (p, .join, [])
  | .leave p => some (p, .leave, [])
  | .suspend p => some (p, .suspend, [])
  | .resume p => some (p, .resume, [])
  | .setaccept p acceptSet intake => some (p, .setaccept, [acceptSet, intake])
  | .claim p index => some (p, .claim, [index])
  | .draft p contents => some (p, .draft, contents)
  | .publish p index => some (p, .publish, [index])
  | .disable p index => some (p, .disable, [index])
  | .retire p index => some (p, .retire, [index])
  | .tread p index => some (p, .tread, [index])
  | .rxpeek p count => some (p, .rxpeek, [count])
  | .rxread p handle offset count release =>
    some (p, .rxread, [handle] ++ halfBytes offset ++ halfBytes count ++ [release])
  | .rxrelease p handle => some (p, .rxrelease, [handle])
  | .txopen p length => some (p, .txopen, halfBytes length)
  | .txwrite p handle offset data =>
    some (p, .txwrite, [handle] ++ halfBytes offset ++ beBytes 2 data.length ++ data)
  | .txpost p handle flags => some (p, .txpost, [handle, flags])
  | .txcancel p handle => some (p, .txcancel, [handle])
  | .txdone p => some (p, .txdone, [])
  | .propose p record => some (p, .propose, recordBytes record)
  | .endorse p number => some (p, .endorse, halfBytes number)
  | .object p number => some (p, .object, halfBytes number)
  | .events p => some (p, .events, [])
  | .setmask p mask => some (p, .setmask, halfBytes mask)
  | .snapshot p option => some (p, .snapshot, [option])
  | _ => none

/-- The transaction under way on a port can carry a command with these input bytes: its command byte is
still to come, or the bytes received so far are the first of this command's. -/
abbrev Carries (s : State) (p : Station) (c : Command) (input : List Byte) : Prop :=
  (s.ports.get p).phase = .command ∨
    ((s.ports.get p).phase = .input ∧ (s.ports.get p).code = some c.code ∧
      (s.ports.get p).input <+: input)

/-- A command was taken on the port of `p` with a result and response data (R179, R180, R184): the phase, the
result, the response and the last-result record of that port are the command's, and no other port
changed. -/
structure Answered (s t : State) (p : Station) (c : Command) (r : Result) (response : List Byte) :
    Prop where
  phase : (t.ports.get p).phase = if c.isRead then .turnaround else .result
  code : (t.ports.get p).code = some c.code
  result : (t.ports.get p).result = some r
  response : (t.ports.get p).response = response
  lastResult : c ≠ .getresult → (t.ports.get p).lastResult = .code r
  lastCommand : c ≠ .getresult → (t.ports.get p).lastCommand = some c.code
  others : ∀ q, q ≠ p → t.ports.get q = s.ports.get q

/-- Completed bytes, one after another, on one port. -/
def feedBytes (p : Station) : List Byte → State → Host.Outcome State Fault Refusal
  | [], s => .next s
  | b :: rest, s =>
    match exec (.completedByte p b) s with
    | .next t => feedBytes p rest t
    | .fault e => .fault e
    | .refused e => .refused e

/-! ### The free list and the frames -/

/-- The granules in the chains of all frame records. -/
def State.chains (s : State) : List Granule := s.store.frames.rows.flatMap fun f => f.chain

/-- A frame with holds removed by a function is released if none is left, and keeps its record otherwise:
what an event that removes holds from this one frame does to the record and the free list (R7, R14). -/
def ReleasedOrKept (s t : State) (h : Handle) (left : Holds) : Prop :=
  (left.isEmpty = true → t.frame h = Frame.free ∧
    t.store.freeList = s.store.freeList ++ (s.frame h).chain) ∧
  (left.isEmpty = false → t.frame h = { s.frame h with holds := left } ∧
    t.store.freeList = s.store.freeList)

/-- No frame record but one changed. -/
def OnlyFrame (s t : State) (h : Handle) : Prop := ∀ k, k ≠ h → t.frame k = s.frame k

/-- Holds were removed in one event, down to what is left on each frame: every frame that lost its last hold is
released, its chain appended to the free list in ascending order of handle, and every other frame keeps its
record (R7, R14, R15). -/
structure HoldsRemoved (s t : State) (left : Handle → Holds) : Prop where
  unheld : ∀ h, (s.frame h).holds.isEmpty = true → (left h).isEmpty = true → t.frame h = s.frame h
  released : ∀ h, (s.frame h).holds.isEmpty = false → (left h).isEmpty = true → t.frame h = Frame.free
  kept : ∀ h, (left h).isEmpty = false → t.frame h = { s.frame h with holds := left h }
  freeList : t.store.freeList = s.store.freeList ++ (List.finRange 128).flatMap fun h =>
    if (s.frame h).holds.isEmpty = false ∧ (left h).isEmpty = true then (s.frame h).chain else []
  mem : t.store.mem = s.store.mem

/-! ### The flow-control generator and the transmitter -/

/-- The Link MAC after the generator made a request, which left the generator in a state with a refresh timer: an
IDLE transmitter begins the flow-control frame, and otherwise the request is the pending one (R142, R144,
R147). -/
def Mac.requested (m : Mac) (speed : Speed) (now : Nat) (quanta : Half) (asserted : Bool)
    (refreshAt : Option Nat) : Mac :=
  if m.tx = .idle then
    { m with
      tx := .flow quanta (now + 672 * speed.bitTime),
      gen := { asserted := asserted, pending := none, refreshAt := refreshAt } }
  else
    { m with gen := { asserted := asserted, pending := some quanta, refreshAt := refreshAt } }

/-- The generator was handed a free-list length at an instant, under the figures of a record: Table 7-6 line by
line, from the Link MAC before to the Link MAC after (R145). -/
structure LengthAnswered (m n : Mac) (now length : Nat) (r : PartitionRecord) : Prop where
  down : m.link = .down → n = m
  low : ∀ speed, m.link = .up speed → m.gen.asserted = false → length < r.pauseOn.toNat →
    n = m.requested speed now r.quanta true (some (now + r.quanta.toNat * (256 * speed.bitTime)))
  enough : m.gen.asserted = false → r.pauseOn.toNat ≤ length → n = m
  short : m.gen.asserted = true → length < r.pauseOff.toNat → n = m
  resumed : ∀ speed, m.link = .up speed → m.gen.asserted = true → r.pauseOff.toNat ≤ length →
    n = m.requested speed now 0 false none

/-- Whether an event hands the generator a free-list length: it changed the length, or it installed other
thresholds or quanta (R2, R15, R145, R148). -/
def lengthHanded (s t : State) : Prop :=
  t.store.freeList.length ≠ s.store.freeList.length ∨
    t.partition.installed.pauseOn ≠ s.partition.installed.pauseOn ∨
    t.partition.installed.pauseOff ≠ s.partition.installed.pauseOff ∨
    t.partition.installed.quanta ≠ s.partition.installed.quanta

/-- What an event that ends in the generator's answer, and does nothing else at the Link MAC, makes of the Link MAC:
nothing unless the generator is handed a length, and then what Table 7-6 gives for the length and the record in
force after the event (R15, R145, R148). -/
structure GeneratorAnswers (s t : State) : Prop where
  unhanded : ¬ lengthHanded s t → t.mac = s.mac
  handed : lengthHanded s t →
    LengthAnswered s.mac t.mac t.clock.now t.store.freeList.length t.partition.installed

/-- The transmitter was told to take work: it does while it is IDLE with the link UP, a pending flow-control request
first, whether or not the pause timer is running, and otherwise, with the timer zero, the front post entry of the
station that the scheduler chooses, which is marked started and whose frame receives the wire hold (R126, R127,
R141, R142). -/
structure TookWork (s t : State) : Prop where
  busy : s.mac.tx ≠ .idle ∨ s.mac.link = .down → t = s
  request : ∀ speed quanta, s.mac.link = .up speed → s.mac.tx = .idle →
    s.mac.gen.pending = some quanta →
    t = { s with mac := { s.mac with
      tx := .flow quanta (s.clock.now + 672 * speed.bitTime),
      gen := { s.mac.gen with pending := none } } }
  paused : s.mac.gen.pending = none → s.mac.pauseUntil ≠ none → t = s
  nothing : s.mac.link ≠ .down → s.mac.tx = .idle → s.mac.gen.pending = none →
    s.mac.pauseUntil = none → ∀ v,
    examine s.weights s.headLengths examinationBound 0 s.scheduler = (none, v) →
    t = { s with scheduler := v }
  chosen : ∀ speed, s.mac.link = .up speed → s.mac.tx = .idle → s.mac.gen.pending = none →
    s.mac.pauseUntil = none → ∀ p v e more,
    examine s.weights s.headLengths examinationBound 0 s.scheduler = (some p, v) →
    (s.posts.get p).queue = e :: more → (s.frame e.handle).state ≠ .free →
    t = { s with
      scheduler := v,
      posts := s.posts.set p { s.posts.get p with queue := { e with started := true } :: more },
      store := { s.store with
        frames := s.store.frames.set e.handle { s.frame e.handle with
          holds := { (s.frame e.handle).holds with wire := true } } },
      mac := { s.mac with
        tx := .station p e.handle (s.clock.now + (8 * e.wireLength + 192) * speed.bitTime) } }

/-! ### Flags, the Partition Unit and session end -/

/-- A flag was raised at the stations of a description that are in session, and at no other station anything of
the Attention Unit changed; ATTN follows the flags and the mask (R165, R167). -/
def Raised (s t : State) (f : Flag) (who : Station → Prop) : Prop :=
  ∀ q, (who q ∧ s.inSession q = true →
      t.attention.get q =
        { flags := (s.attention.get q).flags ||| f.single, mask := (s.attention.get q).mask,
          attn := (((s.attention.get q).flags ||| f.single) &&& (s.attention.get q).mask) != 0 }) ∧
    (¬ (who q ∧ s.inSession q = true) → t.attention.get q = s.attention.get q)

/-- Which flags an event raises at a station: while the station is in session they are set and no other changes, the
mask stays and ATTN follows; with no flag to raise, or in OFFLINE, nothing changes (R165, R167). -/
def FlagsRaised (s t : State) (q : Station) (which : Flag → Prop) : Prop :=
  (s.inSession q = true ∧ (∃ f, which f) →
      (∀ f, hasFlag (t.attention.get q).flags f = true ↔
        hasFlag (s.attention.get q).flags f = true ∨ which f) ∧
      (t.attention.get q).mask = (s.attention.get q).mask ∧
      (t.attention.get q).attn =
        ((t.attention.get q).flags &&& (t.attention.get q).mask != 0)) ∧
    (¬ (s.inSession q = true ∧ ∃ f, which f) → t.attention.get q = s.attention.get q)

/-- A counter of a station came to its top value (R174). -/
def StationSaturates (s t : State) (q : Station) : Prop :=
  ∃ c, (s.stationCounters.get q).get c ≠ 0xFFFFFFFF ∧ (t.stationCounters.get q).get c = 0xFFFFFFFF

/-- A link counter came to its top value (R174). -/
def LinkSaturates (s t : State) : Prop :=
  ∃ c, s.linkCounters.get c ≠ 0xFFFFFFFF ∧ t.linkCounters.get c = 0xFFFFFFFF

/-- The number of front entries of a queue whose wait has reached a hold limit at an instant (R106). -/
def expiredCount (q : List IntakeEntry) (limit : Half) (now : Nat) : Nat :=
  (q.takeWhile fun e => e.admitted + limit.toNat * unitsPerMs ≤ now).length

/-- The number of entries of a station that an installation of a record expires: none unless its hold limit differs
from the installed one and is not 0 (R108, R161). -/
def expiredAt (s : State) (record : PartitionRecord) (q : Station) : Nat :=
  if record.holdLimit ≠ s.partition.installed.holdLimit ∧ record.holdLimit ≠ 0 then
    expiredCount (s.intake.get q) record.holdLimit s.clock.now
  else 0

/-- The stations that lose a frame's entry when each loses a number of front entries. -/
def losers (s : State) (gone : Station → Nat) (h : Handle) : StationSet :=
  stationsWhere fun q => ((s.intake.get q).take (gone q)).any fun e => decide (e.handle = h)

/-- A record was installed under a number (R108, R160, R161): the Partition Unit's items but its counter, the
entries that the hold limit expires with their counters, PARTITION and EXPIRED, the store, and the generator's
answer; nothing else but ports and sessions, of which this says nothing. -/
structure Installed (s t : State) (number : Half) (record : PartitionRecord) : Prop where
  installed : t.partition.installed = record
  recordNumber : t.partition.recordNumber = number
  proposal : t.partition.proposal = none
  lastOutcome : t.partition.lastOutcome = some (.installed number)
  intake : ∀ q, t.intake.get q = (s.intake.get q).drop (expiredAt s record q)
  counters : ∀ q, t.stationCounters.get q = { s.stationCounters.get q with
    expired := satAdd (s.stationCounters.get q).expired (expiredAt s record q) }
  flags : ∀ q, FlagsRaised s t q fun f => f = .partition ∨
    (f = .expired ∧ 0 < expiredAt s record q) ∨ (f = .saturated ∧ StationSaturates s t q)
  holds : HoldsRemoved s t fun h => { (s.frame h).holds with
    intake := (s.frame h).holds.intake &&& ~~~ losers s (expiredAt s record) h }
  mac : GeneratorAnswers s t
  kept : t.clock = s.clock ∧ t.pins = s.pins ∧ t.store.mem = s.store.mem ∧ t.table = s.table ∧
    t.sequence = s.sequence ∧ t.posts = s.posts ∧ t.scheduler = s.scheduler ∧
    t.linkCounters = s.linkCounters ∧ t.pending = s.pending

/-- What the departure of an ACTIVE station makes of the Partition Unit (R158). -/
structure Departed (s t : State) (p : Station) : Prop where
  none : s.partition.proposal = none → t.partition = s.partition
  proposer : ∀ o, s.partition.proposal = some o → o.proposer = p →
    t.partition = { s.partition with
      proposal := .none, lastOutcome := some (.abandoned o.number) }
  last : ∀ o, s.partition.proposal = some o → o.proposer ≠ p → inSet o.required p = true →
    eraseStation o.endorsed p = eraseStation o.required p →
    t.partition = { s.partition with
      installed := o.record, recordNumber := o.number, proposal := .none,
      lastOutcome := some (.installed o.number) }
  removed : ∀ o, s.partition.proposal = some o → o.proposer ≠ p → inSet o.required p = true →
    eraseStation o.endorsed p ≠ eraseStation o.required p →
    t.partition = { s.partition with proposal := some { o with
      required := eraseStation o.required p, endorsed := eraseStation o.endorsed p } }
  neither : ∀ o, s.partition.proposal = some o → o.proposer ≠ p → inSet o.required p = false →
    t.partition = s.partition

/-- Whether the open proposal, if there is one, concerns a station as proposer or required station. -/
def concerned (s : State) (p : Station) : Prop :=
  ∃ o, s.partition.proposal = some o ∧ (o.proposer = p ∨ inSet o.required p = true)

/-- The TABLE event of a session end of `p` reaches a station: it accepts `p` and is another station, and an
ACTIVE entry of `p` targets it (R43, R41). -/
def tableEventReaches (s : State) (p q : Station) : Prop :=
  q ≠ p ∧ s.accepts q p = true ∧ ∃ i c, (s.entry i).owner = some p ∧ (s.entry i).state = .active ∧
    (s.entry i).contents = some c ∧ inSet c.targets q = true

/-- The record that the departure of a station installs: that of the open proposal, when the station is required
and every other required station has endorsed (R158). -/
def departureInstalls (s : State) (p : Station) : Option PartitionRecord :=
  match s.partition.proposal with
  | none => none
  | some o =>
    if o.proposer ≠ p ∧ inSet o.required p = true ∧
        eraseStation o.endorsed p = eraseStation o.required p then some o.record
    else none

/-- The number of entries of another station that expire at the session end of `p`, by the installation that it
makes (R158, R161); the queue of `p` itself is emptied before. -/
def departureExpires (s : State) (p q : Station) : Nat :=
  match departureInstalls s p with
  | some record => if q = p then 0 else expiredAt s record q
  | none => 0

/-- The session end of `p` abandons its own proposal, which requires a station (R158, R159). -/
def departureAbandons (s : State) (p q : Station) : Prop :=
  ∃ o, s.partition.proposal = some o ∧ o.proposer = p ∧ inSet o.required q = true

/-- The session of a station ended (R79 to R82, R43, R22), with all that the open proposal, if it concerns the
station, makes of the other stations and of the store (R81, R158 to R161). -/
structure TornDown (s t : State) (p : Station) : Prop where
  session : t.session p = { s.session p with state := .offline, accept := 0, defaultIntake := .none }
  accepts : ∀ q, q ≠ p → t.session q = { s.session q with accept := eraseStation (s.session q).accept p }
  entries : ∀ i, t.entry i =
    if (s.entry i).owner = some p then { state := .free, owner := .none, contents := .none, hits := 0 }
    else s.entry i
  drafts : t.table.drafts = s.table.drafts.set p .none
  raised : (∃ i, (s.entry i).owner = some p ∧ (s.entry i).state = .active) →
    t.table.generation = s.table.generation + 1
  unraised : (¬ ∃ i, (s.entry i).owner = some p ∧ (s.entry i).state = .active) →
    t.table.generation = s.table.generation
  intake : t.intake.get p = []
  posts : t.posts = s.posts.set p { queue := [], completions := [], number := 0 }
  scheduler : t.scheduler = { s.scheduler with
    deficit := s.scheduler.deficit.set p 0, credited := s.scheduler.credited.set p false }
  attention : t.attention.get p = { flags := 0, mask := 0, attn := false }
  holds : ∀ h, (t.frame h).holds.heldBy p = false
  partition : Departed s t p
  intakes : ∀ q, q ≠ p → t.intake.get q = (s.intake.get q).drop (departureExpires s p q)
  counters : ∀ q, t.stationCounters.get q = { s.stationCounters.get q with
    expired := satAdd (s.stationCounters.get q).expired (departureExpires s p q) }
  flags : ∀ q, q ≠ p → FlagsRaised s t q fun f =>
    (f = .table ∧ tableEventReaches s p q) ∨ (f = .abandoned ∧ departureAbandons s p q) ∨
    (f = .partition ∧ departureInstalls s p ≠ none) ∨
    (f = .expired ∧ 0 < departureExpires s p q) ∨ (f = .saturated ∧ StationSaturates s t q)
  removed : HoldsRemoved s t fun h => { (s.frame h).holds.withoutStation p with
    intake := eraseStation (s.frame h).holds.intake p &&& ~~~ losers s (departureExpires s p) h }
  mac : GeneratorAnswers s t
  kept : t.clock = s.clock ∧ t.store.mem = s.store.mem ∧ t.sequence = s.sequence ∧
    t.linkCounters = s.linkCounters ∧ t.pending = s.pending

/-! ### After device reset -/

/-- The values that the manual gives every block after device reset (R23, R44, R66, R84, R110, R132, R150,
R164, R171; Tables 0-4, 8-2, 9-1). -/
structure ResetValues (t : State) : Prop where
  freeList : t.store.freeList = List.finRange 512
  frames : ∀ h, t.frame h = {
    state := .free, origin := none, length := 0, chain := [],
    holds := { fill := false, build := 0, intake := 0, read := 0, post := 0, wire := false },
    result := none, truncated := false, tooLong := false }
  entries : ∀ i, t.entry i = { state := .free, owner := none, contents := none, hits := 0 }
  drafts : ∀ p, t.table.drafts.get p = none
  generation : t.table.generation = 0
  sequence : t.sequence = 0
  sessions : ∀ p, t.session p =
    { state := .offline, number := 0, accept := 0, defaultIntake := .none }
  intake : ∀ p, t.intake.get p = []
  posts : ∀ p, t.posts.get p = { queue := [], completions := [], number := 0 }
  pointer : t.scheduler.pointer = .s0
  deficit : ∀ p, t.scheduler.deficit.get p = 0
  credited : ∀ p, t.scheduler.credited.get p = false
  link : t.mac.link = .down
  comparison : t.mac.comparePending = true
  receiver : t.mac.receiver = .idle
  transmitter : t.mac.tx = .idle
  pause : t.mac.pauseUntil = none
  generator : t.mac.gen = { asserted := false, pending := none, refreshAt := none }
  shares : ∀ p, t.partition.installed.share.get p = { quota := 128, allowance := 16, weight := 4 }
  figures : t.partition.installed.reserve = 24 ∧ t.partition.installed.pauseOn = 32 ∧
    t.partition.installed.pauseOff = 96 ∧ t.partition.installed.quanta = 2048 ∧
    t.partition.installed.holdLimit = 0
  recordNumber : t.partition.recordNumber = 0
  proposal : t.partition.proposal = none
  counter : t.partition.counter = 0
  lastOutcome : t.partition.lastOutcome = none
  attention : ∀ p, t.attention.get p = { flags := 0, mask := 0, attn := false }
  linkCounters : ∀ c, t.linkCounters.get c = 0
  stationCounters : ∀ p c, (t.stationCounters.get p).get c = 0
  ports : ∀ p, (t.ports.get p).lastResult = .code .ok ∧ (t.ports.get p).lastCommand = none ∧
    (t.ports.get p).code = none ∧ (t.ports.get p).input = [] ∧ (t.ports.get p).result = none ∧
    (t.ports.get p).response = [] ∧ (t.ports.get p).reading = none

/-! ### Admission -/

/-- The counters of a station after a frame was classified and offered: delivered and wake deliveries where it was
admitted, one drop where it was not, and an asleep drop where the station slept without a wake mark (R60, R92,
R93). -/
def admissionCounters (s : State) (delivery wake asleep admitted : StationSet) (q : Station) :
    StationCounters :=
  let v := s.stationCounters.get q
  let dropped := inSet delivery q && s.inSession q && !inSet admitted q
  { v with
    delivered := if inSet admitted q then satAdd v.delivered 1 else v.delivered,
    wakeDeliveries := if inSet admitted q && inSet wake q then satAdd v.wakeDeliveries 1
      else v.wakeDeliveries,
    queueFullDrops := if dropped && decide (32 ≤ (s.intake.get q).length)
      then satAdd v.queueFullDrops 1 else v.queueFullDrops,
    quotaDrops := if dropped && decide ((s.intake.get q).length < 32)
      then satAdd v.quotaDrops 1 else v.quotaDrops,
    asleepDrops := if inSet asleep q then satAdd v.asleepDrops 1 else v.asleepDrops }

/-- The flags that classification and admission of a frame raise at a station (R60, R92, R93). -/
def admissionFlag (delivery wake asleep admitted : StationSet) (q : Station) (f : Flag) : Prop :=
  (f = .rxready ∧ inSet admitted q = true) ∨
    (f = .wake ∧ inSet admitted q = true ∧ inSet wake q = true) ∨
    (f = .drop ∧ ((inSet delivery q = true ∧ inSet admitted q = false) ∨ inSet asleep q = true))

/-- A frame was offered to the stations of a delivery set, each deciding for itself by Table 5-3, and the admitted
ones have it at the tail of their queues (R91 to R95). -/
structure Offered (s t : State) (h : Handle) (delivery wake admitted : StationSet) : Prop where
  admits : ∀ q, inSet admitted q = true ↔ inSet delivery q = true ∧
    (s.session q).state ≠ .offline ∧ (s.intake.get q).length < 32 ∧
    s.charge q + (s.frame h).chain.length ≤ (s.partition.installed.share.get q).quota.toNat
  intake : ∀ q, t.intake.get q = if inSet admitted q then
      s.intake.get q ++ [{ handle := h, admitted := s.clock.now, wake := inSet wake q }]
    else s.intake.get q

/-! ### Counters and discards -/

/-- SATURATED was raised at every station in session if a link counter reached its top, and otherwise the
Attention Unit is as it was (R174). -/
def SaturatedIf (reached : Bool) (s t : State) : Prop :=
  (reached = true → Raised s t .saturated fun _ => True) ∧
    (reached = false → t.attention = s.attention)

/-- A frame of the receiver was discarded and counted: it is released, the receiver is IDLE, the generator answers
the free-list length, and no station sees anything but a SATURATED flag (R88). -/
structure Discarded (s t : State) (h : Handle) (c : LinkCounter) : Prop where
  frame : t.frame h = Frame.free
  others : OnlyFrame s t h
  freeList : t.store.freeList = s.store.freeList ++ (s.frame h).chain
  mem : t.store.mem = s.store.mem
  counted : t.linkCounters = s.linkCounters.set c (satAdd (s.linkCounters.get c) 1)
  saturated : SaturatedIf (reachesTop (s.linkCounters.get c) 1) s t
  mac : GeneratorAnswers { s with mac := { s.mac with receiver := .idle } } t
  kept : t = { s with
    store := t.store, mac := t.mac, linkCounters := t.linkCounters, attention := t.attention }

/-! ### Moves of the link -/

/-- The link of a hub moved to UP (R137): the speed and LINK at every station in session; then the generator's
comparison of the free-list length; last, the transmitter takes work. -/
structure MovedUp (s t : State) (speed : Speed) : Prop where
  speed100 : speed = if s.pins.speed100 then .m100 else .m10
  stages : ∃ u v : State,
    Raised s u .link (fun _ => True) ∧
    u = { s with mac := { s.mac with link := .up speed }, attention := u.attention } ∧
    LengthAnswered u.mac v.mac u.clock.now u.store.freeList.length u.partition.installed ∧
    v = { u with mac := v.mac } ∧
    TookWork v t

/-- What a move to DOWN leaves of the holds of a frame: the fill hold of the frame being received and the wire and
post holds of the frame being sent go (R8, R12, R13, R136). -/
def leftByDown (s : State) (h : Handle) : Holds :=
  let received : Holds := if s.mac.receiver = .storing h then { (s.frame h).holds with fill := false }
    else (s.frame h).holds
  match s.mac.tx with
  | .station p k _ => if k = h then { received with post := eraseStation received.post p, wire := false }
      else received
  | _ => received

/-- The post entry that the end of a station frame reports: the front entry of the origin's queue, while the frame
carries the origin's post hold (R128, R129). -/
def State.reported (s : State) (p : Station) (h : Handle) : Option PostEntry :=
  if inSet (s.frame h).holds.post p then (s.posts.get p).queue.head? else none

/-- The Post Paths after the end of a station frame reported an outcome: the started front entry leaves its queue and
a completion entry is written; without the post hold nothing happens (R123, R128, R129). -/
def postsEnded (s : State) (p : Station) (h : Handle) (outcome : PostOutcome) (wireLength : PostEntry → Nat) :
    Per PostPath :=
  match s.reported p h with
  | none => s.posts
  | some e => s.posts.set p
      { queue := (s.posts.get p).queue.tail,
        completions := (s.posts.get p).completions ++
          [{ handle := e.handle, number := e.number, outcome := outcome, deliveries := e.deliveries,
             wireLength := wireLength e }],
        number := (s.posts.get p).number }

/-- Whether a frame is being stored. -/
def receiving (s : State) : Bool := match s.mac.receiver with | .storing _ => true | _ => false

/-- Whether a station frame is being sent. -/
def sending (s : State) : Bool := match s.mac.tx with | .station _ _ _ => true | _ => false

/-- The link of a hub moved to DOWN (R90, R129, R136): the Link MAC, LINK at every station in session, the frame
cut off discarded and counted, and the station frame cut short ended LINKLOST, with TXDONE at its origin, while it
carries its origin's post hold. -/
structure MovedDown (s t : State) : Prop where
  mac : t.mac = { s.mac with
    link := .down, receiver := .idle, tx := .idle, pauseUntil := none,
    gen := { asserted := false, pending := none, refreshAt := none } }
  holds : HoldsRemoved s t (leftByDown s)
  counters : t.linkCounters = { s.linkCounters with
    aborted := if receiving s then satAdd s.linkCounters.aborted 1 else s.linkCounters.aborted,
    linkLost := if sending s then satAdd s.linkCounters.linkLost 1 else s.linkCounters.linkLost }
  posts : ∀ p h e, s.mac.tx = .station p h e → t.posts = postsEnded s p h .linkLost fun _ => 0
  unsent : sending s = false → t.posts = s.posts
  flags : ∀ q, FlagsRaised s t q fun f => f = .link ∨
    (f = .txdone ∧ ∃ h e, s.mac.tx = .station q h e ∧ s.reported q h ≠ none) ∨
    (f = .saturated ∧ LinkSaturates s t)
  kept : t = { s with
    store := t.store, posts := t.posts, mac := t.mac, attention := t.attention,
    linkCounters := t.linkCounters }

/-! ### Invariants -/

/-- ATTN follows the flags and the mask, and an OFFLINE station has neither (R167, R165, R82). -/
def AttentionSound (s : State) : Prop :=
  ∀ p, (s.attention.get p).attn = ((s.attention.get p).flags &&& (s.attention.get p).mask != 0) ∧
    (s.inSession p = false → (s.attention.get p).flags = 0 ∧ (s.attention.get p).mask = 0)

/-- The memory is in its canonical form. -/
def MemorySound (s : State) : Prop := Memory.wf s.store.mem

/-- An open proposal as Table 8-3 and R153 describe it: a valid record, a required set of ACTIVE stations
without the proposer, an endorsed set inside it and smaller than it, an ACTIVE proposer, and the number of
the proposal counter, which is not 0. -/
structure ProposalSound (s : State) (o : Proposal) : Prop where
  valid : recordValid o.record = true
  required : ∀ p, inSet o.required p = true → s.isActive p = true
  endorsed : ∀ p, inSet o.endorsed p = true → inSet o.required p = true
  incomplete : o.endorsed ≠ o.required
  proposer : s.isActive o.proposer = true
  notRequired : inSet o.required o.proposer = false
  number : o.number = s.partition.counter
  numbered : o.number ≠ 0

/-- The installed record is valid, and so is the open proposal, if there is one (R152, R153). -/
def PartitionSound (s : State) : Prop :=
  recordValid s.partition.installed = true ∧
    ∀ o, s.partition.proposal = some o → ProposalSound s o

/-- While the link is DOWN nothing is sent or received, no pause is in force and the generator is CLEAR; the
refresh timer runs exactly while the generator is ASSERTED; a request is pending only while the transmitter
is busy (R136, R144, R146). -/
structure LinkSound (s : State) : Prop where
  down : s.mac.link = .down → s.mac.tx = .idle ∧ s.mac.pauseUntil = none ∧
    s.mac.gen = .clear ∧ s.mac.receiver = .idle
  refresh : s.mac.gen.asserted = s.mac.gen.refreshAt.isSome
  pending : s.mac.gen.pending.isSome = true → s.mac.tx ≠ .idle

/-- A record is FREE exactly when its hold set is empty, and then it holds the values of a FREE record; the
frame that the receiver stores is FILLING and carries the fill hold (R3, R7, R85). -/
structure FramesSound (s : State) : Prop where
  free : ∀ h, (s.frame h).state = .free → s.frame h = Frame.free
  held : ∀ h, (s.frame h).holds.isEmpty = true → (s.frame h).state = .free
  storing : ∀ h, s.mac.receiver = .storing h →
    (s.frame h).state = .filling ∧ (s.frame h).holds.fill = true

/-- Each granule stands exactly once in the free list or in the chain of one frame record, and not in both;
a FREE record has an empty chain (R1, R3). -/
def GranulesSound (s : State) : Prop :=
  FramesSound s ∧ ∀ g : Granule, (s.store.freeList ++ s.chains).count g = 1

/-- The transmit use of a station never exceeds 8, and its intake queue never holds more than 32 entries
(R112, R95). -/
def QueuesBounded (s : State) : Prop :=
  ∀ p, s.transmitUse p ≤ 8 ∧ (s.intake.get p).length ≤ 32

/-- An OFFLINE station has nothing in the hub (R67, R83). -/
structure NothingHeld (s : State) (p : Station) : Prop where
  accept : (s.session p).accept = 0
  intakeMode : (s.session p).defaultIntake = .none
  draft : s.table.drafts.get p = none
  entries : ∀ i, (s.entry i).owner ≠ some p
  intake : s.intake.get p = []
  posts : s.posts.get p = { queue := [], completions := [], number := 0 }
  holds : ∀ h, (s.frame h).holds.heldBy p = false
  deficit : s.scheduler.deficit.get p = 0
  credited : s.scheduler.credited.get p = false

/-- An OFFLINE station holds nothing; an accept set names other stations that are in session; a station in
session is present (R67, R68, R83). -/
structure SessionsSound (s : State) : Prop where
  offline : ∀ p, s.inSession p = false → NothingHeld s p
  accepted : ∀ p q, s.accepts p q = true → q ≠ p ∧ s.inSession q = true
  present : ∀ p, s.inSession p = true → s.pins.present.get p = true

/-- The holds of Table 1-4 in each state of a record, and every hold of a station with what it stands for: an
intake hold with an entry of the station's queue, a post hold with an entry of its post queue, a read hold with
the RXREAD under way on its port, and the wire hold with the transmitter; no handle stands twice in a queue, and a
started post is the front entry that is being sent (R8 to R13, R95, R127). -/
structure HoldsSound (s : State) : Prop where
  frames : FramesSound s
  filling : ∀ h, (s.frame h).state = .filling → (s.frame h).holds = { Holds.none with fill := true }
  building : ∀ h, (s.frame h).state = .building → ∃ p,
    (s.frame h).origin = some (.station p) ∧ (s.frame h).holds = { Holds.none with build := setOf p }
  settled : ∀ h, (s.frame h).state = .settled →
    (s.frame h).holds.fill = false ∧ (s.frame h).holds.build = 0
  intake : ∀ p h, inSet (s.frame h).holds.intake p = true ↔ ∃ e ∈ s.intake.get p, e.handle = h
  intakeOnce : ∀ p, ((s.intake.get p).map fun e => e.handle).Nodup
  post : ∀ p h, inSet (s.frame h).holds.post p = true ↔ ∃ e ∈ (s.posts.get p).queue, e.handle = h
  postOnce : ∀ p, ((s.posts.get p).queue.map fun e => e.handle).Nodup
  read : ∀ p h, inSet (s.frame h).holds.read p = true ↔
    ∃ r, (s.ports.get p).reading = some r ∧ r.handle = h
  reading : ∀ p, (s.ports.get p).phase = .idle ∨ (s.ports.get p).phase = .command ∨
    (s.ports.get p).phase = .input → (s.ports.get p).reading = none
  wire : ∀ h, (s.frame h).holds.wire = true ↔ ∃ p e, s.mac.tx = .station p h e
  sent : ∀ p h e, s.mac.tx = .station p h e → inSet (s.frame h).holds.post p = true →
    ∃ x more, (s.posts.get p).queue = x :: more ∧ x.handle = h ∧ x.started = true
  started : ∀ p, ∀ x ∈ (s.posts.get p).queue, x.started = true → ∃ e, s.mac.tx = .station p x.handle e

/-- A chain holds exactly the granules that the length of its frame calls for (R3, R20). -/
def ChainsSound (s : State) : Prop := ∀ h, (s.frame h).chain.length = ((s.frame h).length + 127) / 128

/-- While the link is UP, a CLEAR generator means a free list at pause-on or above, and an ASSERTED one a free list
below pause-off (R145, R148). -/
structure GeneratorSound (s : State) : Prop where
  link : LinkSound s
  partition : PartitionSound s
  clear : s.mac.link ≠ .down → s.mac.gen.asserted = false →
    s.partition.installed.pauseOn.toNat ≤ s.store.freeList.length
  asserted : s.mac.gen.asserted = true →
    s.store.freeList.length < s.partition.installed.pauseOff.toNat

/-- No stored frame is longer than 1514 bytes, and no post entry has a greater wire length (R3, Table
6-2). -/
def LengthsBounded (s : State) : Prop :=
  (∀ h, (s.frame h).length ≤ 1514) ∧
    ∀ p, ∀ e ∈ (s.posts.get p).queue, e.wireLength ≤ 1514

/-- While the link is UP, no pause is in force and the transmitter is IDLE, no post waits; and a deficit is at most
1513 while its station is not credited, and 5609 while it is (R126, R142). -/
structure WorkConserved (s : State) : Prop where
  partition : PartitionSound s
  link : LinkSound s
  lengths : LengthsBounded s
  deficits : ∀ p, s.scheduler.deficit.get p ≤ if s.scheduler.credited.get p then 5609 else 1513
  work : s.mac.link ≠ .down → s.mac.tx = .idle → s.mac.pauseUntil = none →
    ∀ p, (s.posts.get p).queue = []

end Sys2Proof.Machine
end

