-- ==== Sys2Proof/Certificates/Slice0/Obligations.lean ====
section
/-! DEFINITION. The statements for the provers. A statement about a station command is about its
command-taken point on a transaction that can carry it (`Carries`); O9 says what the row does otherwise. -/

open Sys2Proof Sys2Proof.Machine

/-! ### The queue and the step -/

/-- A step takes the command at the front of the queue, and runs it on the hub with the queue's rest. -/
def Obligations.StepTakesTheFrontCommand : Prop :=
  ∀ (c : Instr) (rest : List Instr) (s : State),
    step { s with pending := c :: rest } = exec c { s with pending := rest }

/-- On an empty queue the events of the hub's own that are due are those whose timer has reached its instant;
a step takes the only one, or one of several by a free choice, or lets 10 ns pass (the model's choice, logs 2
and 3). -/
def Obligations.StepOnAnEmptyQueue : Prop :=
  ∀ s : State, s.pending = [] →
    (∀ c, c ∈ s.dueEvents ↔
      (c = .linkInputCompare ∧ s.mac.comparePending = true) ∨
      (c = .transmissionComplete ∧ ∃ p h t, s.mac.tx = .station p h t ∧ t ≤ s.clock.now) ∨
      (c = .flowControlComplete ∧ ∃ q t, s.mac.tx = .flow q t ∧ t ≤ s.clock.now) ∨
      (c = .pauseTimerExpiry ∧ ∃ t, s.mac.pauseUntil = some t ∧ t ≤ s.clock.now) ∨
      (c = .refreshTimerExpiry ∧ ∃ t, s.mac.gen.refreshAt = some t ∧ t ≤ s.clock.now) ∨
      (∃ p e more, c = .holdLimitExpiry p ∧ s.intake.get p = e :: more ∧
        s.partition.installed.holdLimit ≠ 0 ∧
        e.admitted + s.partition.installed.holdLimit.toNat * 100000 ≤ s.clock.now) ∨
      (c = .proposalExpiry ∧ ∃ o, s.partition.proposal = some o ∧ o.expiry ≤ s.clock.now)) ∧
    (s.dueEvents = [] → step s = .next { s with clock := { s.clock with now := s.clock.now + 1 } }) ∧
    (∀ c, s.dueEvents = [c] → step s = exec c s) ∧
    (2 ≤ s.dueEvents.length → ∃ c ∈ s.dueEvents,
      step s = exec c { s with clock := { s.clock with choices := s.clock.choices + 1 } })

/-- Every well-formed command answers a next state in every state; an ill-formed one is refused (log 7). -/
def Obligations.EveryCommandAnswers : Prop :=
  ∀ (i : Instr) (s : State),
    (i.wf = true → ∃ t, exec i s = .next t) ∧ (i.wf = false → exec i s = .refused .illFormed)

/-- Device reset gives every block its reset values, as `State.reset` has them; a port whose select is low
goes on in DISCARD, the others are IDLE; the input pins, the model's clock and the queue stay. -/
def Obligations.DeviceResetRestoresEveryBlock : Prop :=
  ResetValues State.reset ∧ State.reset.pending = [] ∧
  (∀ p, (State.reset.ports.get p).phase = .idle) ∧
  ∀ s : State, ∃ t, exec .deviceReset s = .next t ∧ ResetValues t ∧
    (∀ p, (t.ports.get p).phase = if (s.ports.get p).phase = .idle then .idle else .discard) ∧
    t.clock = s.clock ∧ t.pins = s.pins ∧ t.pending = s.pending

/-! ### The station port -/

/-- A fall of select in IDLE starts a transaction and captures the summary byte of the station, and changes
nothing else (R177, R178). In another phase no fall can occur (log 5). -/
def Obligations.SelectFallCapturesTheSummary : Prop :=
  ∀ (p : Station) (s : State),
    ((s.ports.get p).phase = .idle → ∃ v : Port,
      exec (.selectFall p) s = .next { s with ports := s.ports.set p v } ∧
      v.phase = .command ∧ v.code = none ∧ v.input = [] ∧ v.result = none ∧ v.response = [] ∧
      v.reading = none ∧ v.lastResult = (s.ports.get p).lastResult ∧
      v.lastCommand = (s.ports.get p).lastCommand ∧
      v.summary.getLsbD 0 = true ∧
      v.summary.getLsbD 1 = ((s.ports.get p).lastResult != .code .ok) ∧
      (v.summary.getLsbD 2 = true ↔ ∃ o, s.partition.proposal = some o ∧
        inSet o.required p = true ∧ inSet o.endorsed p = false) ∧
      (v.summary.getLsbD 3 = true ↔ (s.posts.get p).completions ≠ []) ∧
      (v.summary.getLsbD 4 = true ↔ s.intake.get p ≠ []) ∧
      v.summary.getLsbD 5 = (s.attention.get p).attn ∧
      v.summary.toNat / 64 = match (s.session p).state with
        | .offline => 0 | .active => 1 | .suspended => 2) ∧
    ((s.ports.get p).phase ≠ .idle → exec (.selectFall p) s = .next s)

/-- A rise of select before the command-taken point abandons the transaction: only the port changes, and its
last result becomes "abandoned" with the command byte received, or none. After the taken point of a command
that streams no frame only the transaction ends. The rise that ends an RXREAD also removes its read hold, whether
or not every byte was shifted out, and releases the frame if no other hold is left. A rise in IDLE does nothing
(R11, R101, R181). -/
def Obligations.SelectRiseEndsTheTransaction : Prop :=
  ∀ (p : Station) (s : State),
    ((s.ports.get p).phase = .idle → exec (.selectRise p) s = .next s) ∧
    ((s.ports.get p).phase = .command ∨ (s.ports.get p).phase = .input → ∃ v : Port,
      exec (.selectRise p) s = .next { s with ports := s.ports.set p v } ∧
      v.phase = .idle ∧ v.lastResult = .abandoned ∧ v.lastCommand = (s.ports.get p).code) ∧
    (((s.ports.get p).phase = .turnaround ∨ (s.ports.get p).phase = .result ∨
        (s.ports.get p).phase = .output ∨ (s.ports.get p).phase = .discard) →
      (s.ports.get p).reading = none → ∃ v : Port,
      exec (.selectRise p) s = .next { s with ports := s.ports.set p v } ∧
      v.phase = .idle ∧ v.lastResult = (s.ports.get p).lastResult ∧
      v.lastCommand = (s.ports.get p).lastCommand) ∧
    ∀ r : ReadStream,
      ((s.ports.get p).phase = .turnaround ∨ (s.ports.get p).phase = .result ∨
        (s.ports.get p).phase = .output ∨ (s.ports.get p).phase = .discard) →
      (s.ports.get p).reading = some r → inSet (s.frame r.handle).holds.read p = true →
      ∃ t, exec (.selectRise p) s = .next t ∧
        (t.ports.get p).phase = .idle ∧ (t.ports.get p).reading = none ∧
        (t.ports.get p).lastResult = (s.ports.get p).lastResult ∧
        (t.ports.get p).lastCommand = (s.ports.get p).lastCommand ∧
        (∀ q, q ≠ p → t.ports.get q = s.ports.get q) ∧
        ReleasedOrKept s t r.handle { (s.frame r.handle).holds with
          read := eraseStation (s.frame r.handle).holds.read p } ∧
        OnlyFrame s t r.handle ∧ t.store.mem = s.store.mem ∧ GeneratorAnswers s t ∧
        t = { s with store := t.store, mac := t.mac, ports := t.ports }

/-- A command byte that names no defined command is answered BADARG in every session state, changes only the
port, and every later byte of the transaction is ignored: the result byte, then zeros (R182). -/
def Obligations.UndefinedCommandIsBadarg : Prop :=
  ∀ (p : Station) (code : Byte) (s : State),
    (∀ c : Command, c.code ≠ code) → (s.ports.get p).phase = .command →
    ∃ v : Port, exec (.undefinedCommand p code) s = .next { s with ports := s.ports.set p v } ∧
      v.phase = .result ∧ v.result = some .badArg ∧ v.response = [] ∧
      v.lastResult = .code .badArg ∧ v.lastCommand = some code ∧
      ∀ first second : Byte, ∃ w : Port,
        exec (.completedByte p first) { s with ports := s.ports.set p v } =
          .next { s with ports := s.ports.set p w } ∧
        w.phase = .discard ∧ w.miso = some 0x88 ∧
        w.lastResult = .code .badArg ∧ w.lastCommand = some code ∧
        exec (.completedByte p second) { s with ports := s.ports.set p w } =
          .next { s with ports := s.ports.set p { w with miso := some 0 } }

/-- In a session state that Table 4-3 does not permit, a command is answered NOSESSION with zeros for data,
and changes only its port (R75). A command answered other than OK changes nothing but its port, and its response
data is zero (R180, R184). -/
def Obligations.RefusalsChangeNothing : Prop :=
  (∀ (i : Instr) (p : Station) (c : Command) (input : List Byte) (s : State),
      commandInput i = some (p, c, input) → i.wf = true → Carries s p c input →
      (s.session p).state ∉ sessionsFor c →
      ∃ t, exec i s = .next t ∧ Answered s t p c .noSession (zeros (refusedLength c)) ∧
        t = { s with ports := t.ports }) ∧
  ∀ (i : Instr) (p : Station) (c : Command) (input : List Byte) (s t : State),
    commandInput i = some (p, c, input) → Carries s p c input → exec i s = .next t →
    (t.ports.get p).result ≠ some .ok →
    t = { s with ports := t.ports } ∧ (∀ q, q ≠ p → t.ports.get q = s.ports.get q) ∧
      ∀ b ∈ (t.ports.get p).response, b = 0

/-- On a port whose transaction cannot carry it, a command row stands for its own transaction: a rise and a
fall of select, and then the command (the model's choice, log 6). -/
def Obligations.ARowStandsForItsTransaction : Prop :=
  (∀ (i : Instr) (p : Station) (c : Command) (input : List Byte) (s : State),
    commandInput i = some (p, c, input) → ¬ Carries s p c input →
    ∃ t u, exec (.selectRise p) s = .next t ∧ exec (.selectFall p) t = .next u ∧
      Carries u p c input ∧ exec i s = exec i u) ∧
  ∀ (p : Station) (code : Byte) (s : State), (s.ports.get p).phase ≠ .command →
    ∃ t u, exec (.selectRise p) s = .next t ∧ exec (.selectFall p) t = .next u ∧
      (u.ports.get p).phase = .command ∧
      exec (.undefinedCommand p code) s = exec (.undefinedCommand p code) u

/-- Byte by byte, the command byte and the input bytes of a command take a port in COMMAND to the same state
as the command's row (R179, R180, R183, R191). -/
def Obligations.BytesCarryTheCommand : Prop :=
  ∀ (i : Instr) (p : Station) (c : Command) (input : List Byte) (s : State),
    commandInput i = some (p, c, input) → i.wf = true → (s.ports.get p).phase = .command →
    feedBytes p (c.code :: input) s = exec i s

/-- A completed byte is handled by the phase of the port (Table 10-1). In COMMAND an undefined code is
UNDEFINED_COMMAND, a command without input is taken, and another waits for its input with the summary byte shifted
out (R178, R180, R182). In INPUT the last byte takes the command, and any other is stored with zero shifted out;
until the command is taken only the port changes (R179, R180). Then come the turnaround byte, the result byte,
response data or the frame data of an RXREAD, whose last byte is LAST_REQUESTED_BYTE, and zeros in DISCARD (R101,
R180). With select high a byte is ignored (R177). -/
def Obligations.CompletedBytesByPhase : Prop :=
  ∀ (p : Station) (b : Byte) (s : State),
    ((s.ports.get p).phase = .idle → exec (.completedByte p b) s = .next s) ∧
    ((s.ports.get p).phase = .command →
      ((∀ c : Command, c.code ≠ b) →
        exec (.completedByte p b) s = exec (.undefinedCommand p b) s) ∧
      ∀ c : Command, c.code = b →
        (∀ i, commandInput i = some (p, c, []) → i.wf = true →
          exec (.completedByte p b) s = exec i s) ∧
        (c.inputComplete [] = false → exec (.completedByte p b) s =
          .next { s with ports := s.ports.set p { s.ports.get p with
            phase := .input, code := some b, input := [], miso := some (s.ports.get p).summary } })) ∧
    (∀ c : Command, (s.ports.get p).phase = .input → (s.ports.get p).code = some c.code →
      (∀ i, commandInput i = some (p, c, (s.ports.get p).input ++ [b]) → i.wf = true →
        exec (.completedByte p b) s = exec i s) ∧
      (c.inputComplete ((s.ports.get p).input ++ [b]) = false → exec (.completedByte p b) s =
        .next { s with ports := s.ports.set p { s.ports.get p with
          input := (s.ports.get p).input ++ [b], miso := some 0 } })) ∧
    ((s.ports.get p).phase = .turnaround → exec (.completedByte p b) s =
      .next { s with ports := s.ports.set p { s.ports.get p with phase := .result, miso := some 0 } }) ∧
    (∀ r, (s.ports.get p).phase = .result → (s.ports.get p).result = some r →
      exec (.completedByte p b) s = .next { s with ports := s.ports.set p { s.ports.get p with
        phase := if (s.ports.get p).response = [] ∧ (s.ports.get p).reading = none then .discard
          else .output,
        miso := some r.byte } }) ∧
    (∀ d more, (s.ports.get p).phase = .output → (s.ports.get p).reading = none →
      (s.ports.get p).response = d :: more →
      exec (.completedByte p b) s = .next { s with ports := s.ports.set p { s.ports.get p with
        phase := if more = [] then .discard else .output, miso := some d, response := more } }) ∧
    (∀ r, (s.ports.get p).phase = .output → (s.ports.get p).reading = some r →
      r.sent + 1 < r.count →
      exec (.completedByte p b) s = .next { s with ports := s.ports.set p { s.ports.get p with
        reading := some { r with sent := r.sent + 1 },
        miso := some (s.byteAt r.handle (r.offset + r.sent)) } }) ∧
    (∀ r, (s.ports.get p).phase = .output → (s.ports.get p).reading = some r →
      r.sent + 1 = r.count →
      exec (.completedByte p b) s = exec (.lastRequestedByte p) s) ∧
    ((s.ports.get p).phase = .discard → exec (.completedByte p b) s =
      .next { s with ports := s.ports.set p { s.ports.get p with miso := some 0 } })

/-- In every session state STATUS returns the items of Table 10-3, GETRESULT the last-result record, LINKSTATUS the
state of the link side and of the free resources, and PREAD the state of the Partition Unit; they change only the
port, and GETRESULT not even the record (R149, R163, R185, R186). A time left is counted in whole units rounded
up, and a running timer shows at least one (log 11). -/
def Obligations.WholeHubReads : Prop :=
  ∀ (p : Station) (s : State),
    (Carries s p .status [] → ∃ t, exec (.status p) s = .next t ∧
      Answered s t p .status .ok
        ([sessionByte (s.session p).state, (s.session p).number] ++ beBytes 2 (s.charge p) ++
          beBytes 2 (s.partition.installed.share.get p).quota.toNat ++
          [(s.partition.installed.share.get p).allowance, BitVec.ofNat 8 (s.ownedCount p),
           BitVec.ofNat 8 (s.posts.get p).queue.length,
           BitVec.ofNat 8 (s.posts.get p).completions.length, BitVec.ofNat 8 (s.buildCount p),
           BitVec.ofNat 8 (s.intake.get p).length] ++
          beBytes 2 s.table.generation.toNat ++ beBytes 2 (s.attention.get p).flags.toNat) ∧
      t = { s with ports := t.ports }) ∧
    (Carries s p .getresult [] → ∃ t, exec (.getresult p) s = .next t ∧
      Answered s t p .getresult .ok
        [(s.ports.get p).lastResult.byte, (s.ports.get p).lastCommand.getD 0] ∧
      (t.ports.get p).lastResult = (s.ports.get p).lastResult ∧
      (t.ports.get p).lastCommand = (s.ports.get p).lastCommand ∧
      t = { s with ports := t.ports }) ∧
    (Carries s p .linkstatus [] → ∃ t, exec (.linkstatus p) s = .next t ∧
      Answered s t p .linkstatus .ok
        ((match s.mac.link with
          | .down => ([0, 0] : List Byte) | .up .m10 => [1, 1] | .up .m100 => [1, 2]) ++
          [match s.mac.tx with | .idle => (0 : Byte) | .station _ _ _ => 1 | .flow _ _ => 2] ++
          beBytes 2 (match s.mac.link, s.mac.pauseUntil with
            | .up .m10, some e => max 1 ((e - s.clock.now + 5119) / 5120)
            | .up .m100, some e => max 1 ((e - s.clock.now + 511) / 512)
            | _, _ => 0) ++
          [yesNo s.mac.gen.asserted, yesNo s.mac.gen.pending.isSome] ++
          beBytes 2 s.store.freeList.length ++
          [BitVec.ofNat 8 ((List.finRange 128).filter fun h => (s.frame h).state == .free).length]) ∧
      t = { s with ports := t.ports }) ∧
    (Carries s p .pread [] → ∃ t, exec (.pread p) s = .next t ∧
      Answered s t p .pread .ok
        (beBytes 2 s.partition.recordNumber.toNat ++ recordBytes s.partition.installed ++
          (match s.partition.proposal with
            | none => zeros 32
            | some o => [1] ++ beBytes 2 o.number.toNat ++ [stationByte o.proposer] ++
                recordBytes o.record ++ [setByte o.required, setByte o.endorsed,
                  BitVec.ofNat 8 (max 1 ((o.expiry - s.clock.now + 99999) / 100000))]) ++
          (match s.partition.lastOutcome with
            | none => ([0, 0, 0] : List Byte)
            | some (.installed n) => 1 :: beBytes 2 n.toNat
            | some (.abandoned n) => 2 :: beBytes 2 n.toNat)) ∧
      t = { s with ports := t.ports })

/-! ### Station sessions -/

/-- JOIN of an OFFLINE station starts a session while PRESENT is high, and is answered ABSENT while it is low
(R69, R70). Nothing else changes. -/
def Obligations.JoinStartsASession : Prop :=
  ∀ (p : Station) (s : State), Carries s p .join [] → (s.session p).state = .offline →
    (s.pins.present.get p = true → ∃ t n,
      exec (.join p) s = .next t ∧ Answered s t p .join .ok [n] ∧
      n = (if (s.session p).number = 255 then 1 else (s.session p).number + 1) ∧
      t = { s with
        sessions := s.sessions.set p
          { state := .active, number := n, accept := 0, defaultIntake := .none },
        table := { s.table with drafts := s.table.drafts.set p none },
        stationCounters := s.stationCounters.set p ⟨0, 0, 0, 0, 0, 0, 0, 0, 0, 0, 0⟩,
        attention := s.attention.set p
          { flags := (s.attention.get p).flags, mask := 0, attn := false },
        posts := s.posts.set p { s.posts.get p with number := 0 },
        ports := t.ports }) ∧
    (s.pins.present.get p = false → ∃ t, exec (.join p) s = .next t ∧
      Answered s t p .join .absent [0] ∧ t = { s with ports := t.ports })

/-- LEAVE of a station in session is answered OK and tears the session down, with all that this makes of an open
proposal and of the other stations; its own transaction is not abandoned (R77, R79 to R82, R158 to R161). -/
def Obligations.LeaveTearsDown : Prop :=
  ∀ (p : Station) (s : State), Carries s p .leave [] → (s.session p).state ≠ .offline →
    ∃ t, exec (.leave p) s = .next t ∧ Answered s t p .leave .ok [] ∧ TornDown s t p ∧
      t.pins = s.pins

/-- A fall of PRESENT ends a session and abandons the transaction under way on the port; in OFFLINE it changes
only the level, and so does a rise in any state (R68, R78, R187). -/
def Obligations.PresentLine : Prop :=
  ∀ (p : Station) (s : State),
    ((s.session p).state ≠ .offline → ∃ t, exec (.presentFall p) s = .next t ∧ TornDown s t p ∧
      t.pins = { s.pins with present := s.pins.present.set p false } ∧
      (∀ q, q ≠ p → t.ports.get q = s.ports.get q) ∧
      ((s.ports.get p).phase = .idle → t.ports.get p = s.ports.get p) ∧
      ((s.ports.get p).phase ≠ .idle → (t.ports.get p).phase = .discard ∧
        (t.ports.get p).reading = none ∧ (t.ports.get p).lastResult = .abandoned ∧
        (t.ports.get p).lastCommand = (s.ports.get p).code)) ∧
    ((s.session p).state = .offline → exec (.presentFall p) s =
      .next { s with pins := { s.pins with present := s.pins.present.set p false } }) ∧
    exec (.presentRise p) s =
      .next { s with pins := { s.pins with present := s.pins.present.set p true } }

/-- SUSPEND of an ACTIVE station makes it SUSPENDED and takes it out of the agreement on an open proposal, which
is abandoned, installed or kept open (R71, R158). -/
def Obligations.SuspendPutsToSleep : Prop :=
  ∀ (p : Station) (s : State), Carries s p .suspend [] → (s.session p).state = .active →
    ∃ t, exec (.suspend p) s = .next t ∧ Answered s t p .suspend .ok [] ∧
      t.sessions = s.sessions.set p { s.session p with state := .suspended } ∧ Departed s t p ∧
      (¬ concerned s p → t = { s with sessions := t.sessions, ports := t.ports }) ∧
      (∀ o, s.partition.proposal = some o → o.proposer = p →
        t = { s with
          sessions := t.sessions, ports := t.ports, partition := t.partition, attention := t.attention } ∧
        Raised s t .abandoned (fun q => q = p ∨ inSet o.required q = true)) ∧
      (∀ o, s.partition.proposal = some o → o.proposer ≠ p → inSet o.required p = true →
        (eraseStation o.endorsed p ≠ eraseStation o.required p →
          t = { s with sessions := t.sessions, ports := t.ports, partition := t.partition }) ∧
        (eraseStation o.endorsed p = eraseStation o.required p → Installed s t o.number o.record))

/-- RESUME of a SUSPENDED station makes it ACTIVE and changes nothing else (R73). SETACCEPT of an ACTIVE station
replaces its accept set, less the OFFLINE stations, and its default intake, unless the default intake is not
defined or the set names the station itself or no station (R74, R190). -/
def Obligations.ResumeAndSetaccept : Prop :=
  ∀ (p : Station) (s : State),
    (Carries s p .resume [] → (s.session p).state = .suspended →
      ∃ t, exec (.resume p) s = .next t ∧ Answered s t p .resume .ok [] ∧
        t = { s with
          sessions := s.sessions.set p { s.session p with state := .active }, ports := t.ports }) ∧
    ∀ set intake : Byte, Carries s p .setaccept [set, intake] → (s.session p).state = .active →
      (∀ v : DefaultIntake, intake = intakeByte v → set.toNat < 16 →
        inSet (set.setWidth 4) p = false → ∃ (t : State) (stored : StationSet),
        exec (.setaccept p set intake) s = .next t ∧
        Answered s t p .setaccept .ok [setByte stored] ∧
        (∀ q, inSet stored q = (inSet (set.setWidth 4) q && s.inSession q)) ∧
        t = { s with
          sessions := s.sessions.set p { s.session p with accept := stored, defaultIntake := v },
          ports := t.ports }) ∧
      ((∀ v : DefaultIntake, intake ≠ intakeByte v) ∨ 16 ≤ set.toNat ∨
        inSet (set.setWidth 4) p = true → ∃ t,
        exec (.setaccept p set intake) s = .next t ∧ Answered s t p .setaccept .badArg [0] ∧
        t = { s with ports := t.ports })

/-! ### The steering table -/

/-- CLAIM of an ACTIVE station checks the index, the allowance, and the entry named or the lowest FREE one, in
that order; the entry becomes IDLE and the station's, and the generation stands (R29, R30). -/
def Obligations.ClaimTakesAFreeEntry : Prop :=
  ∀ (p : Station) (index : Byte) (s : State), Carries s p .claim [index] →
    (s.session p).state = .active →
    (64 ≤ index.toNat → index ≠ 0xFF → ∃ t, exec (.claim p index) s = .next t ∧
      Answered s t p .claim .badArg [0] ∧ t = { s with ports := t.ports }) ∧
    ((index.toNat < 64 ∨ index = 0xFF) →
      (s.partition.installed.share.get p).allowance.toNat ≤ s.ownedCount p →
      ∃ t, exec (.claim p index) s = .next t ∧
        Answered s t p .claim .denied [0] ∧ t = { s with ports := t.ports }) ∧
    (s.ownedCount p < (s.partition.installed.share.get p).allowance.toNat →
      (∀ i : EntryIndex, index.toNat = i.val → (s.entry i).state ≠ .free →
        ∃ t, exec (.claim p index) s = .next t ∧
          Answered s t p .claim .busy [0] ∧ t = { s with ports := t.ports }) ∧
      (index = 0xFF → (∀ i, (s.entry i).state ≠ .free) →
        ∃ t, exec (.claim p index) s = .next t ∧
          Answered s t p .claim .noRoom [0] ∧ t = { s with ports := t.ports }) ∧
      (∀ i : EntryIndex, (s.entry i).state = .free →
        (index.toNat = i.val ∨ (index = 0xFF ∧ ∀ j < i, (s.entry j).state ≠ .free)) →
        ∃ t, exec (.claim p index) s = .next t ∧
          Answered s t p .claim .ok [BitVec.ofNat 8 i.val] ∧
          t = { s with
            table := { s.table with
              entries := s.table.entries.set i
                { state := .idle, owner := some p, contents := none, hits := 0 } },
            ports := t.ports }))

/-- DRAFT of an ACTIVE station replaces its draft whole with the contents it carries, and answers BADARG and
keeps the draft when a value is undefined or out of range; it touches no entry (R32). -/
def Obligations.DraftReplacesTheDraft : Prop :=
  ∀ (p : Station) (data : List Byte) (s : State), Command.draft.inputComplete data = true →
    Carries s p .draft data → (s.session p).state = .active →
    (∀ c : Contents, contentsOfBytes data = some c → ∃ t, exec (.draft p data) s = .next t ∧
      Answered s t p .draft .ok [] ∧
      t = { s with
        table := { s.table with drafts := s.table.drafts.set p (some c) }, ports := t.ports }) ∧
    (contentsOfBytes data = none → ∃ t, exec (.draft p data) s = .next t ∧
      Answered s t p .draft .badArg [] ∧ t = { s with ports := t.ports }) ∧
    (contentsOfBytes data = none ↔
      2 < (inByte data 1).toNat ∨ 2 < (inByte data 2).toNat ∨ 7 < (inByte data 3).toNat ∨
      ((inByte data 3).getLsbD 2 = true ∧ 15 < (inByte data 4).toNat) ∨
      15 < (inByte data 5).toNat ∨ 4 < (inByte data 6).toNat ∨
      (inByte data 6 = 0 ∧ 1 < (inByte data 7).toNat) ∨
      (inByte data 6 = 3 ∧ (inByte data 9 = 0 ∨ 32 < (inByte data 9).toNat)))

/-- PUBLISH of an ACTIVE station that owns the entry and has a valid draft copies the draft into the entry, makes
it ACTIVE with no hits, raises the generation by one and TABLE at the stations it reaches or reached; otherwise
it is answered BADARG or DENIED, in the order of R33 (R29, R33, R34, R41). -/
def Obligations.PublishActivatesAnEntry : Prop :=
  ∀ (p : Station) (index : Byte) (s : State), Carries s p .publish [index] →
    (s.session p).state = .active →
    (64 ≤ index.toNat → ∃ t, exec (.publish p index) s = .next t ∧
      Answered s t p .publish .badArg [0, 0] ∧ t = { s with ports := t.ports }) ∧
    ∀ i : EntryIndex, index.toNat = i.val →
      ((s.entry i).state = .free ∨ (s.entry i).owner ≠ some p →
        ∃ t, exec (.publish p index) s = .next t ∧
          Answered s t p .publish .denied [0, 0] ∧ t = { s with ports := t.ports }) ∧
      ((s.entry i).state ≠ .free → (s.entry i).owner = some p →
        (∀ c : Contents, s.table.drafts.get p = some c →
          (c.action = .contain → c.scope = .localPosts) →
          (∀ offset template mask, c.kind = .pattern offset template mask →
            offset.toNat ≤ 1513 ∧ offset.toNat + template.length ≤ 1514) →
          (c.originSet ≠ none → c.scope ≠ .arrivals) →
          ∃ t, exec (.publish p index) s = .next t ∧
            Answered s t p .publish .ok (beBytes 2 (s.table.generation + 1).toNat) ∧
            t = { s with
              table := { s.table with
                entries := s.table.entries.set i
                  { state := .active, owner := some p, contents := some c, hits := 0 },
                generation := s.table.generation + 1 },
              attention := t.attention, ports := t.ports } ∧
            Raised s t .table (fun q => q ≠ p ∧ s.accepts q p = true ∧
              (inSet c.targets q = true ∨ inSet (s.entry i).activeTargets q = true))) ∧
        ((s.table.drafts.get p = none ∨ ∃ c : Contents, s.table.drafts.get p = some c ∧
            ((c.action = .contain ∧ c.scope ≠ .localPosts) ∨
              (∃ offset template mask, c.kind = .pattern offset template mask ∧
                (1513 < offset.toNat ∨ 1514 < offset.toNat + template.length)) ∨
              (c.originSet ≠ none ∧ c.scope = .arrivals))) →
          ∃ t, exec (.publish p index) s = .next t ∧
            Answered s t p .publish .badArg [0, 0] ∧ t = { s with ports := t.ports }))

/-- DISABLE makes an owned ACTIVE entry IDLE with its contents and hits, RETIRE makes an owned entry FREE; the
generation rises by one exactly if the entry was ACTIVE, and then RETIRE raises TABLE at the stations the entry
reached. An index outside 0 to 63 is BADARG, an entry that is FREE or another station's is DENIED (R29, R35,
R36, R41). -/
def Obligations.DisableAndRetire : Prop :=
  ∀ (p : Station) (index : Byte) (s : State), (s.session p).state = .active →
    (Carries s p .disable [index] →
      (64 ≤ index.toNat → ∃ t, exec (.disable p index) s = .next t ∧
        Answered s t p .disable .badArg [0, 0] ∧ t = { s with ports := t.ports }) ∧
      ∀ i : EntryIndex, index.toNat = i.val →
        ((s.entry i).state = .free ∨ (s.entry i).owner ≠ some p →
          ∃ t, exec (.disable p index) s = .next t ∧
            Answered s t p .disable .denied [0, 0] ∧ t = { s with ports := t.ports }) ∧
        ((s.entry i).state = .idle → (s.entry i).owner = some p →
          ∃ t, exec (.disable p index) s = .next t ∧
            Answered s t p .disable .ok (beBytes 2 s.table.generation.toNat) ∧
            t = { s with ports := t.ports }) ∧
        ((s.entry i).state = .active → (s.entry i).owner = some p →
          ∃ t, exec (.disable p index) s = .next t ∧
            Answered s t p .disable .ok (beBytes 2 (s.table.generation + 1).toNat) ∧
            t = { s with
              table := { s.table with
                entries := s.table.entries.set i { s.entry i with state := .idle },
                generation := s.table.generation + 1 },
              ports := t.ports })) ∧
    (Carries s p .retire [index] →
      (64 ≤ index.toNat → ∃ t, exec (.retire p index) s = .next t ∧
        Answered s t p .retire .badArg [0, 0] ∧ t = { s with ports := t.ports }) ∧
      ∀ i : EntryIndex, index.toNat = i.val →
        ((s.entry i).state = .free ∨ (s.entry i).owner ≠ some p →
          ∃ t, exec (.retire p index) s = .next t ∧
            Answered s t p .retire .denied [0, 0] ∧ t = { s with ports := t.ports }) ∧
        ((s.entry i).state = .idle → (s.entry i).owner = some p →
          ∃ t, exec (.retire p index) s = .next t ∧
            Answered s t p .retire .ok (beBytes 2 s.table.generation.toNat) ∧
            t = { s with
              table := { s.table with
                entries := s.table.entries.set i
                  { state := .free, owner := none, contents := none, hits := 0 } },
              ports := t.ports }) ∧
        ((s.entry i).state = .active → (s.entry i).owner = some p →
          ∃ t, exec (.retire p index) s = .next t ∧
            Answered s t p .retire .ok (beBytes 2 (s.table.generation + 1).toNat) ∧
            t = { s with
              table := { s.table with
                entries := s.table.entries.set i
                  { state := .free, owner := none, contents := none, hits := 0 },
                generation := s.table.generation + 1 },
              attention := t.attention, ports := t.ports } ∧
            Raised s t .table (fun q => q ≠ p ∧ s.accepts q p = true ∧
              inSet (s.entry i).activeTargets q = true)))

/-- TREAD of an ACTIVE station returns any entry as it stands, whoever owns it, and changes only the port
(R37). -/
def Obligations.TreadReturnsAnEntry : Prop :=
  ∀ (p : Station) (index : Byte) (s : State), Carries s p .tread [index] →
    (s.session p).state = .active →
    (64 ≤ index.toNat → ∃ t, exec (.tread p index) s = .next t ∧
      Answered s t p .tread .badArg (zeros 10) ∧ t = { s with ports := t.ports }) ∧
    ∀ i : EntryIndex, index.toNat = i.val → ∃ t, exec (.tread p index) s = .next t ∧
      Answered s t p .tread .ok
        ([match (s.entry i).state with | .free => (0 : Byte) | .idle => 1 | .active => 2,
          match (s.entry i).owner with | some q => stationByte q | none => 0xFF] ++
          beBytes 4 (s.entry i).hits.toNat ++ beBytes 2 s.table.generation.toNat ++
          (match (s.entry i).contents with
            | none => ([0, 0] : List Byte)
            | some c => beBytes 2 c.bytes.length ++ c.bytes)) ∧
      t = { s with ports := t.ports }

/-- Entry contents and a partition record travel on the port unchanged: reading back the bytes of contents in
range gives the contents, and the bytes are as many as a DRAFT takes; reading back the 25 bytes of a record
gives the record (Table 11-6, Table 11-10). -/
def Obligations.ContentsAndRecordsTravelUnchanged : Prop :=
  (∀ c : Contents, c.inRange = true →
    contentsOfBytes c.bytes = some c ∧ Command.draft.inputComplete c.bytes = true) ∧
  ∀ r : PartitionRecord, recordOfBytes (recordBytes r) = r ∧ (recordBytes r).length = 25

/-! ### Classification -/

/-- A GROUP entry matches by the bucket of the destination: the low six bits of the exclusive OR of its six
bytes; Table 3-1 gives three of them (R50). -/
def Obligations.GroupMatchesByBucket : Prop :=
  (∀ (s : State) (h : Handle) (buckets : BitVec 64),
    s.kindMatches h (.group buckets) = buckets.getLsbD
      ((s.byteAt h 0 ^^^ s.byteAt h 1 ^^^ s.byteAt h 2 ^^^ s.byteAt h 3 ^^^ s.byteAt h 4 ^^^
        s.byteAt h 5).toNat % 64)) ∧
  (∀ (s : State) (h : Handle), s.kindMatches h (.group 0) = false ∧
    s.kindMatches h (.group (BitVec.allOnes 64)) = true) ∧
  (∀ dest : List Byte, bucketOf dest < 64) ∧
  bucketOf [0xFF, 0xFF, 0xFF, 0xFF, 0xFF, 0xFF] = 0 ∧
  bucketOf [0x01, 0x00, 0x5E, 0x00, 0x00, 0xFB] = 36 ∧
  bucketOf [0x33, 0x33, 0x00, 0x00, 0x00, 0x01] = 1

/-- ADDRESS, TYPE and ALL entries match as R49 says, and a PATTERN entry matches exactly when its span lies within
the frame and every masked byte agrees (R51). -/
def Obligations.KindsMatch : Prop :=
  ∀ (s : State) (h : Handle),
    (∀ value, s.kindMatches h (.address .dest value) = true ↔
      s.bytesAt h 0 6 = beBytes 6 value.toNat) ∧
    (∀ value, s.kindMatches h (.address .src value) = true ↔
      s.bytesAt h 6 6 = beBytes 6 value.toNat) ∧
    (∀ value : Half, s.kindMatches h (.ethertype value) = true ↔
      s.bytesAt h 12 2 = beBytes 2 value.toNat) ∧
    s.kindMatches h .all = true ∧
    ∀ (offset : Half) (template mask : List Byte), mask.length = template.length →
      (s.kindMatches h (.pattern offset template mask) = true ↔
        offset.toNat + template.length ≤ (s.frame h).length ∧
        ∀ i < template.length, s.byteAt h (offset.toNat + i) &&& inByte mask i =
          inByte template i &&& inByte mask i)

/-- The evaluation order holds exactly the ACTIVE entries, each once, by ascending precedence and among equals by
ascending index (R38). The effective targets of an entry are its targets that are in session, accept its owner or
are its owner, and in local scope are not the origin (R52). -/
def Obligations.OrderAndReach : Prop :=
  (∀ s : State, (∀ i, i ∈ s.evaluationOrder ↔ (s.entry i).state = .active) ∧
      s.evaluationOrder.Pairwise fun i j =>
        s.precedence i < s.precedence j ∨ (s.precedence i = s.precedence j ∧ i < j)) ∧
  ∀ (s : State) (origin : Origin) (owner : Station) (targets : StationSet) (q : Station),
    inSet (s.effectiveTargets origin owner targets) q = true ↔
      inSet targets q = true ∧ (s.session q).state ≠ .offline ∧
      (q = owner ∨ inSet (s.session q).accept owner = true) ∧ origin ≠ .station q

/-- A matching DELIVER entry adds its effective targets outside the excluded set to the delivery set, and with the
wake flag to the wake mark set; it counts its hit and becomes the last match (R54). -/
def Obligations.DeliverAddsItsTargets : Prop :=
  ∀ (s : State) (w : Walk) (i : EntryIndex) (c : Contents) (origin : Origin) (owner : Station),
    c.action = .deliver →
    (∀ q, inSet (w.hit s i c origin owner).delivery q = (inSet w.delivery q ||
      (inSet (s.effectiveTargets origin owner c.targets) q && !inSet w.excluded q))) ∧
    (∀ q, inSet (w.hit s i c origin owner).wakeMark q = (inSet w.wakeMark q ||
      (c.wake && inSet (s.effectiveTargets origin owner c.targets) q && !inSet w.excluded q))) ∧
    ((∀ q, inSet (s.effectiveTargets origin owner c.targets) q = true → inSet w.excluded q = true) →
      (w.hit s i c origin owner).delivery = w.delivery ∧
      (w.hit s i c origin owner).wakeMark = w.wakeMark) ∧
    (w.hit s i c origin owner).excluded = w.excluded ∧
    (w.hit s i c origin owner).keepOff = w.keepOff ∧
    (w.hit s i c origin owner).matched = w.matched ++ [i] ∧
    (w.hit s i c origin owner).last = some i ∧
    ∀ j, (s.raiseHits (w.hit s i c origin owner).matched).entry j = if j ∈ w.matched ∨ j = i
      then { s.entry j with hits := satAdd (s.entry j).hits 1 } else s.entry j

/-- A matching DISCARD entry excludes its effective targets from the delivery set and the wake mark set for the
rest of the walk; a CONTAIN entry sets keep-off for its owner's own posts and does nothing else; both count
their hit and become the last match (R55, R56). -/
def Obligations.DiscardAndContainAct : Prop :=
  ∀ (s : State) (w : Walk) (i : EntryIndex) (c : Contents) (origin : Origin) (owner : Station),
    (c.action = .discard →
      (∀ q, inSet (w.hit s i c origin owner).excluded q =
        (inSet w.excluded q || inSet (s.effectiveTargets origin owner c.targets) q)) ∧
      (∀ q, inSet (w.hit s i c origin owner).delivery q =
        (inSet w.delivery q && !inSet (s.effectiveTargets origin owner c.targets) q)) ∧
      (∀ q, inSet (w.hit s i c origin owner).wakeMark q =
        (inSet w.wakeMark q && !inSet (s.effectiveTargets origin owner c.targets) q)) ∧
      (w.hit s i c origin owner).keepOff = w.keepOff ∧
      (w.hit s i c origin owner).matched = w.matched ++ [i] ∧
      (w.hit s i c origin owner).last = some i) ∧
    (c.action = .contain →
      w.hit s i c origin owner = { w with
        keepOff := w.keepOff || decide (origin = .station owner),
        matched := w.matched ++ [i], last := some i })

/-- The walk of a frame starts with empty sets and no last match, over the whole evaluation order (R53). An entry
applies when it is ACTIVE with a scope for the frame's origin and, in local scope, an origin set that is absent or
holds the origin (R45, R46, R48). The walk tests the entries in order: one that does not apply or does not match is
passed over, a matching one acts, and a matching terminal one ends the walk; a station excluded by it is not in its
delivery set (R53, R55, R57). The result record takes the delivery set, or default intake when nothing matched,
less the SUSPENDED stations without a wake mark, which are the asleep drops (R58 to R61). -/
def Obligations.ClassificationFollowsTheWalk : Prop :=
  ∀ (s : State) (h : Handle) (origin : Origin),
    s.walkFrame h origin = s.walk h origin s.evaluationOrder
      { delivery := 0, excluded := 0, wakeMark := 0, keepOff := false, last := none, matched := [] } ∧
    (∀ (e : Entry) (c : Contents), e.applying origin = some c ↔
      e.state = .active ∧ e.contents = some c ∧
      match origin with
      | .link => c.scope = .arrivals ∨ c.scope = .both
      | .station o => (c.scope = .localPosts ∨ c.scope = .both) ∧
          ∀ set, c.originSet = some set → inSet set o = true) ∧
    (∀ w, s.walk h origin [] w = w) ∧
    (∀ i rest w, (s.entry i).applying origin = none → s.walk h origin (i :: rest) w =
      s.walk h origin rest w) ∧
    (∀ i rest w c owner, (s.entry i).applying origin = some c → (s.entry i).owner = some owner →
      (s.kindMatches h c.kind = false → s.walk h origin (i :: rest) w = s.walk h origin rest w) ∧
      (s.kindMatches h c.kind = true → c.terminal = false → s.walk h origin (i :: rest) w =
        s.walk h origin rest (w.hit s i c origin owner)) ∧
      (s.kindMatches h c.kind = true → c.terminal = true → s.walk h origin (i :: rest) w =
        w.hit s i c origin owner)) ∧
    (∀ q, inSet (s.walkFrame h origin).excluded q = true →
      inSet (s.walkFrame h origin).delivery q = false) ∧
    ∀ (w : Walk) (reached : StationSet), reached =
        (if w.last = none then
          stationsWhere fun t => s.inSession t && decide (origin ≠ .station t) &&
            ((s.session t).defaultIntake == .all ||
              ((s.session t).defaultIntake == .broadcast &&
                decide (s.bytesAt h 0 6 = [0xFF, 0xFF, 0xFF, 0xFF, 0xFF, 0xFF])))
        else w.delivery) →
      (s.resultOf h origin w).sequence = s.sequence ∧
      (s.resultOf h origin w).generation = s.table.generation ∧
      (s.resultOf h origin w).deciding = w.last ∧
      (∀ q, inSet (s.resultOf h origin w).delivery q =
        (inSet reached q && !(s.isSuspended q && !inSet w.wakeMark q))) ∧
      (∀ q, inSet (s.asleepOf h origin w) q =
        (inSet reached q && s.isSuspended q && !inSet w.wakeMark q)) ∧
      (∀ q, inSet (s.resultOf h origin w).wake q =
        (inSet reached q && s.isSuspended q && inSet w.wakeMark q)) ∧
      (s.resultOf h origin w).wire =
        (if origin = .link then none else some (if w.keepOff then .contained else .wire))

/-! ### The receive path and the intake queues -/

/-- The check sequence is the complement of the 32-bit register with polynomial 04C11DB7h, preset to all ones, over
the frame bytes, each least-significant bit first; its four bytes go out with the coefficient of the highest power
first, and taken into the register after their own frame they leave it at C704DD7Bh (R138). A frame start takes the
lowest FREE record for the receiver, or skips the frame and counts it (R4, R85). A byte of a frame being stored joins
the check sequence, and is stored, ignored, or ignored with a flag set, as R86 orders; the first byte of a span
takes the granule at the head of the free list, zeroed, while the list is longer than the receive reserve (R1, R2,
R6, R19). A frame start while DOWN or during a frame, and a byte outside a frame, cannot occur (log 5). -/
def Obligations.FramesAreStored : Prop :=
  (∀ (r : Word) (bit : Bool), crcBit r bit =
    if r.getLsbD 31 = bit then r <<< 1 else (r <<< 1) ^^^ 0x04C11DB7) ∧
  (∀ (r : Word) (b : Byte), crcByte r b =
    crcBit (crcBit (crcBit (crcBit (crcBit (crcBit (crcBit (crcBit r (b.getLsbD 0)) (b.getLsbD 1))
      (b.getLsbD 2)) (b.getLsbD 3)) (b.getLsbD 4)) (b.getLsbD 5)) (b.getLsbD 6)) (b.getLsbD 7)) ∧
  (∀ bytes : List Byte, checkSequence bytes = ~~~ (bytes.foldl crcByte 0xFFFFFFFF) ∧
    (bytes ++ checkBytes (checkSequence bytes)).foldl crcByte 0xFFFFFFFF = 0xC704DD7B) ∧
  (∀ fcs : Word, (checkBytes fcs).length = 4 ∧ ∀ j < 4, ∀ k < 8,
    (inByte (checkBytes fcs) j).getLsbD k = fcs.getLsbD (31 - (8 * j + k))) ∧
  ∀ s : State,
    ((s.mac.link = .down ∨ s.mac.receiver ≠ .idle) → exec .frameStart s = .next s) ∧
    (s.mac.link ≠ .down → s.mac.receiver = .idle →
      (∀ h, (s.frame h).state = .free → (∀ k < h, (s.frame k).state ≠ .free) →
        exec .frameStart s = .next { s with
          store := { s.store with
            frames := s.store.frames.set h
              { state := .filling, origin := some .link, length := 0, chain := [],
                holds := { Holds.none with fill := true }, result := none, truncated := false,
                tooLong := false } },
          mac := { s.mac with receiver := .storing h, rxCrc := BitVec.allOnes 32 } }) ∧
      ((∀ h, (s.frame h).state ≠ .free) → ∃ t, exec .frameStart s = .next t ∧
        t = { s with
          mac := { s.mac with receiver := .skipping },
          linkCounters := { s.linkCounters with noSlot := satAdd s.linkCounters.noSlot 1 },
          attention := t.attention } ∧
        SaturatedIf (reachesTop s.linkCounters.noSlot 1) s t)) ∧
    (∀ b : Byte, (s.mac.receiver = .idle ∨ s.mac.receiver = .skipping) →
      exec (.byteArrival b) s = .next s) ∧
    ∀ (b : Byte) (h : Handle), s.mac.receiver = .storing h →
      ((s.frame h).truncated = true ∨ (s.frame h).tooLong = true →
        exec (.byteArrival b) s =
          .next { s with mac := { s.mac with rxCrc := crcByte s.mac.rxCrc b } }) ∧
      ((s.frame h).truncated = false → (s.frame h).tooLong = false →
        (1514 ≤ (s.frame h).length → exec (.byteArrival b) s = .next { s with
          mac := { s.mac with rxCrc := crcByte s.mac.rxCrc b },
          store := { s.store with
            frames := s.store.frames.set h { s.frame h with tooLong := true } } }) ∧
        ((s.frame h).length < 1514 → (s.frame h).length % 128 = 0 →
          s.store.freeList.length ≤ s.partition.installed.reserve.toNat →
          exec (.byteArrival b) s = .next { s with
            mac := { s.mac with rxCrc := crcByte s.mac.rxCrc b },
            store := { s.store with
              frames := s.store.frames.set h { s.frame h with truncated := true } } }) ∧
        ((s.frame h).length < 1514 → (s.frame h).length % 128 = 0 →
          s.partition.installed.reserve.toNat < s.store.freeList.length →
          (s.frame h).chain.length = (s.frame h).length / 128 →
          ∃ (t : State) (g : Granule) (more : List Granule), s.store.freeList = g :: more ∧
            exec (.byteArrival b) s = .next t ∧
            t.store.freeList = more ∧
            t.store.frames = s.store.frames.set h { s.frame h with
              length := (s.frame h).length + 1, chain := (s.frame h).chain ++ [g] } ∧
            (∀ a, readByte t.store.mem a =
              if a = g.val * 128 then b else if a / 128 = g.val then 0
              else readByte s.store.mem a) ∧
            GeneratorAnswers { s with mac := { s.mac with rxCrc := crcByte s.mac.rxCrc b } } t ∧
            t = { s with store := t.store, mac := t.mac }) ∧
        (∀ g : Granule, (s.frame h).length < 1514 → (s.frame h).length % 128 ≠ 0 →
          (s.frame h).chain[(s.frame h).length / 128]? = some g →
          ∃ t, exec (.byteArrival b) s = .next t ∧
            t.store.frames = s.store.frames.set h { s.frame h with
              length := (s.frame h).length + 1 } ∧
            (∀ a, readByte t.store.mem a =
              if a = g.val * 128 + (s.frame h).length % 128 then b else readByte s.store.mem a) ∧
            t = { s with
              store := { s.store with mem := t.store.mem, frames := t.store.frames },
              mac := { s.mac with rxCrc := crcByte s.mac.rxCrc b } }))

/-- The end of a frame meets the checks of Table 5-2 in order, and each discard releases the frame and raises its
one counter (R87, R88); a frame of which no byte but its check sequence has arrived is four bytes long at most and
ends with bad check sequence, whatever the check sequence is (R138); a skipped frame ends without count (R85). A
flow-control frame loads the pause timer, or clears it, upon which the transmitter takes work if the timer was
running, and is then discarded (R88, R139, R140). With no frame under way the event cannot occur (log 5). -/
def Obligations.FrameEndChecks : Prop :=
  ∀ (s : State) (e : LinkEnd),
    (s.mac.receiver = .idle → exec (.frameEnd e) s = .next s) ∧
    (s.mac.receiver = .skipping →
      exec (.frameEnd e) s = .next { s with mac := { s.mac with receiver := .idle } }) ∧
    ∀ h : Handle, s.mac.receiver = .storing h → (s.frame h).holds = { Holds.none with fill := true } →
      (∀ c : LinkCounter,
        (c = .fcsErrors ∧ (e = .noCheck ∨ ∃ fcs bad, e = .checked fcs bad ∧
            (fcs ≠ ~~~ s.mac.rxCrc ∨ bad = true ∨
              ((s.frame h).length = 0 ∧ (s.frame h).truncated = false ∧
                (s.frame h).tooLong = false)))) ∨
        (c = .aborted ∧ e = .cutOff) ∨
        (e = .checked (~~~ s.mac.rxCrc) false ∧
          ((c = .truncated ∧ (s.frame h).truncated = true) ∨
          ((s.frame h).truncated = false ∧
            ((c = .tooLong ∧ (s.frame h).tooLong = true) ∨
            (c = .runts ∧ (s.frame h).tooLong = false ∧ (s.frame h).length ≠ 0 ∧
              (s.frame h).length < 60))))) →
        ∃ t, exec (.frameEnd e) s = .next t ∧ Discarded s t h c) ∧
      (e = .checked (~~~ s.mac.rxCrc) false → (s.frame h).truncated = false →
        (s.frame h).tooLong = false → 60 ≤ (s.frame h).length →
        s.bytesAt h 0 6 = [0x01, 0x80, 0xC2, 0x00, 0x00, 0x01] →
        s.bytesAt h 12 4 = [0x88, 0x08, 0x00, 0x01] →
        ∀ speed : Speed, s.mac.link = .up speed →
        (beNat (s.bytesAt h 16 2) ≠ 0 → ∃ t, exec (.frameEnd e) s = .next t ∧
          Discarded { s with mac := { s.mac with
            pauseUntil := some (s.clock.now + beNat (s.bytesAt h 16 2) * (512 * speed.bitTime)) } }
            t h .pauseReceived) ∧
        (beNat (s.bytesAt h 16 2) = 0 → s.mac.pauseUntil = none →
          ∃ t, exec (.frameEnd e) s = .next t ∧ Discarded s t h .pauseReceived) ∧
        (beNat (s.bytesAt h 16 2) = 0 → s.mac.pauseUntil ≠ none →
          (∀ p, ∀ x ∈ (s.posts.get p).queue, x.handle ≠ h) →
          ∃ u t, exec (.frameEnd e) s = .next t ∧
            TookWork { s with mac := { s.mac with pauseUntil := none } } u ∧
            Discarded u t h .pauseReceived))

/-- A good frame is settled, counted, classified in arrivals scope and offered to every station of its delivery
set, each deciding for itself by Table 5-3, with the counters and flags of each (R60, R89, R91 to R94); the matched
entries count their hits (R39); if no station admits it, it is undelivered and released, and the generator answers
the free-list length (R145). -/
def Obligations.GoodFramesAreAdmitted : Prop :=
  ∀ (s : State) (h : Handle) (result : ClassResult) (asleep : StationSet),
    s.mac.receiver = .storing h →
    (s.frame h).holds = { Holds.none with fill := true } →
    (s.frame h).truncated = false → (s.frame h).tooLong = false → 60 ≤ (s.frame h).length →
    ¬ (s.bytesAt h 0 6 = [0x01, 0x80, 0xC2, 0x00, 0x00, 0x01] ∧
      s.bytesAt h 12 4 = [0x88, 0x08, 0x00, 0x01]) →
    result = s.resultOf h .link (s.walkFrame h .link) →
    asleep = s.asleepOf h .link (s.walkFrame h .link) →
    ∃ (t : State) (admitted : StationSet),
      exec (.frameEnd (.checked (~~~ s.mac.rxCrc) false)) s = .next t ∧
      Offered s t h result.delivery result.wake admitted ∧
      (∀ q, t.stationCounters.get q =
        admissionCounters s result.delivery result.wake asleep admitted q) ∧
      t.linkCounters = { s.linkCounters with
        goodFrames := satAdd s.linkCounters.goodFrames 1,
        goodBytes := satAdd s.linkCounters.goodBytes (s.frame h).length,
        undelivered := if admitted = 0 then satAdd s.linkCounters.undelivered 1
          else s.linkCounters.undelivered } ∧
      (∀ q, FlagsRaised s t q fun f =>
        admissionFlag result.delivery result.wake asleep admitted q f ∨
        (f = .saturated ∧ (LinkSaturates s t ∨ StationSaturates s t q))) ∧
      t.sequence = s.sequence + 1 ∧
      (∀ i, t.entry i = if i ∈ (s.walkFrame h .link).matched
        then { s.entry i with hits := satAdd (s.entry i).hits 1 } else s.entry i) ∧
      (admitted = 0 → t.frame h = Frame.free ∧
        t.store.freeList = s.store.freeList ++ (s.frame h).chain) ∧
      (admitted ≠ 0 → t.frame h = { s.frame h with
          state := .settled, holds := { Holds.none with intake := admitted },
          result := some result } ∧
        t.store.freeList = s.store.freeList) ∧
      OnlyFrame s t h ∧ t.store.mem = s.store.mem ∧
      GeneratorAnswers { s with mac := { s.mac with receiver := .idle } } t ∧
      t = { s with
        store := t.store, table := { s.table with entries := t.table.entries },
        sequence := t.sequence, intake := t.intake, mac := t.mac, attention := t.attention,
        linkCounters := t.linkCounters, stationCounters := t.stationCounters }

/-- RXPEEK of an ACTIVE station returns the number of its entries and the descriptors of the oldest of them, as
many as it asked for; a count outside 1 to 32 is BADARG and an empty queue EMPTY; it changes only the port (R98,
R99). -/
def Obligations.RxpeekDescribesTheQueue : Prop :=
  ∀ (p : Station) (count : Byte) (s : State), Carries s p .rxpeek [count] →
    (s.session p).state = .active →
    (count.toNat = 0 ∨ 32 < count.toNat → ∃ t, exec (.rxpeek p count) s = .next t ∧
      Answered s t p .rxpeek .badArg [0] ∧ t = { s with ports := t.ports }) ∧
    (1 ≤ count.toNat → count.toNat ≤ 32 → s.intake.get p = [] →
      ∃ t, exec (.rxpeek p count) s = .next t ∧
        Answered s t p .rxpeek .empty [0] ∧ t = { s with ports := t.ports }) ∧
    (1 ≤ count.toNat → count.toNat ≤ 32 → s.intake.get p ≠ [] →
      ∃ (t : State) (data : List Byte), exec (.rxpeek p count) s = .next t ∧
        Answered s t p .rxpeek .ok (BitVec.ofNat 8 (s.intake.get p).length :: data) ∧
        t = { s with ports := t.ports } ∧
        data = ((s.intake.get p).take count.toNat).flatMap fun e =>
          [BitVec.ofNat 8 e.handle.val] ++ beBytes 2 (s.frame e.handle).length ++
          [originByte (s.frame e.handle).origin] ++
          (match (s.frame e.handle).result with
            | some r => beBytes 4 r.sequence.toNat ++ beBytes 2 r.generation.toNat ++
                [decidingByte r.deciding]
            | none => [0, 0, 0, 0, 0, 0, 0xFF]) ++
          [yesNo e.wake] ++ beBytes 2 (min ((s.clock.now - e.admitted) / 100000) 65535))

/-- RXREAD of an ACTIVE station adds its read hold to the frame of one of its entries and starts the stream; a
handle outside its queue is BADHANDLE, and a span or release byte out of range BADARG (R11, R100). -/
def Obligations.RxreadStartsAStream : Prop :=
  ∀ (p : Station) (handle : Byte) (offset count : Half) (release : Byte) (s : State),
    Carries s p .rxread ([handle] ++ halfBytes offset ++ halfBytes count ++ [release]) →
    (s.session p).state = .active →
    ((∀ e ∈ s.intake.get p, e.handle.val ≠ handle.toNat) →
      ∃ t, exec (.rxread p handle offset count release) s = .next t ∧
        Answered s t p .rxread .badHandle [] ∧ t = { s with ports := t.ports }) ∧
    ∀ h : Handle, handle.toNat = h.val → (∃ e ∈ s.intake.get p, e.handle = h) →
      ((1513 < offset.toNat ∨ count.toNat = 0 ∨ 1514 < count.toNat ∨ 1 < release.toNat ∨
          (s.frame h).length < offset.toNat + count.toNat) →
        ∃ t, exec (.rxread p handle offset count release) s = .next t ∧
          Answered s t p .rxread .badArg [] ∧ t = { s with ports := t.ports }) ∧
      (offset.toNat ≤ 1513 → 1 ≤ count.toNat → count.toNat ≤ 1514 → release.toNat ≤ 1 →
        offset.toNat + count.toNat ≤ (s.frame h).length → (s.frame h).state = .settled →
        ∃ t, exec (.rxread p handle offset count release) s = .next t ∧
          Answered s t p .rxread .ok [] ∧
          (t.ports.get p).reading = some {
            handle := h, offset := offset.toNat, count := count.toNat,
            release := decide (release = 1), sent := 0 } ∧
          t = { s with
            store := { s.store with
              frames := s.store.frames.set h { s.frame h with
                holds := { (s.frame h).holds with
                  read := insertStation (s.frame h).holds.read p } } },
            ports := t.ports })

/-- The last requested byte of an RXREAD is the last byte of its span; with the release flag, on a span that
reaches the frame's end, it also removes the entry and its intake hold, while the read hold keeps the frame. The
release finds nothing if the entry has gone (R101, R102). Where earlier bytes of the span are still to come, the event
stands for them too: they went out before it (the model's choice, log 6). With no such byte to come the event cannot
occur (log 5). RXRELEASE of an ACTIVE station removes one of its entries with its intake hold, wherever it stands in the
queue, and releases the frame if that was its last hold; another handle is BADHANDLE (R103). -/
def Obligations.EntriesAreReleased : Prop :=
  (∀ (p : Station) (s : State),
    ((s.ports.get p).streaming = none → exec (.lastRequestedByte p) s = .next s) ∧
    ∀ (r : ReadStream) (v : Port), (s.ports.get p).streaming = some r →
      v = { s.ports.get p with
        phase := .discard, reading := some { r with sent := r.count },
        miso := some (s.byteAt r.handle (r.offset + r.count - 1)) } →
      ((r.release = false ∨ r.offset + r.count ≠ (s.frame r.handle).length ∨
          ∀ e ∈ s.intake.get p, e.handle ≠ r.handle) →
        exec (.lastRequestedByte p) s = .next { s with ports := s.ports.set p v }) ∧
      (r.release = true → r.offset + r.count = (s.frame r.handle).length →
        (∃ e ∈ s.intake.get p, e.handle = r.handle) →
        inSet (s.frame r.handle).holds.read p = true →
        exec (.lastRequestedByte p) s = .next { s with
          ports := s.ports.set p v,
          intake := s.intake.set p ((s.intake.get p).filter fun e => decide (e.handle ≠ r.handle)),
          store := { s.store with
            frames := s.store.frames.set r.handle { s.frame r.handle with
              holds := { (s.frame r.handle).holds with
                intake := eraseStation (s.frame r.handle).holds.intake p } } } })) ∧
  ∀ (p : Station) (handle : Byte) (s : State), Carries s p .rxrelease [handle] →
    (s.session p).state = .active →
    ((∀ e ∈ s.intake.get p, e.handle.val ≠ handle.toNat) →
      ∃ t, exec (.rxrelease p handle) s = .next t ∧
        Answered s t p .rxrelease .badHandle [] ∧ t = { s with ports := t.ports }) ∧
    ∀ h : Handle, handle.toNat = h.val → (∃ e ∈ s.intake.get p, e.handle = h) →
      inSet (s.frame h).holds.intake p = true →
      ∃ t, exec (.rxrelease p handle) s = .next t ∧ Answered s t p .rxrelease .ok [] ∧
        t.intake = s.intake.set p ((s.intake.get p).filter fun e => decide (e.handle ≠ h)) ∧
        ReleasedOrKept s t h { (s.frame h).holds with
          intake := eraseStation (s.frame h).holds.intake p } ∧
        OnlyFrame s t h ∧ t.store.mem = s.store.mem ∧ GeneratorAnswers s t ∧
        t = { s with store := t.store, mac := t.mac, intake := t.intake, ports := t.ports }

/-- The expiry of a station's hold-limit timer removes the front entries whose wait has reached the limit, with
their intake holds; each counts as expired, and EXPIRED is set once (R105, R106). A stopped timer does not expire
(log 5); the expiry brings the clock to its instant (log 2). -/
def Obligations.HoldLimitExpiryDropsTheFront : Prop :=
  ∀ (p : Station) (s : State),
    (s.partition.installed.holdLimit = 0 ∨ s.intake.get p = [] →
      exec (.holdLimitExpiry p) s = .next s) ∧
    ∀ (e : IntakeEntry) (more : List IntakeEntry) (now gone : Nat),
      s.partition.installed.holdLimit ≠ 0 → s.intake.get p = e :: more →
      now = max s.clock.now (e.admitted + s.partition.installed.holdLimit.toNat * 100000) →
      gone = expiredCount (s.intake.get p) s.partition.installed.holdLimit now →
      ∃ t, exec (.holdLimitExpiry p) s = .next t ∧ 1 ≤ gone ∧
        t.intake = s.intake.set p ((s.intake.get p).drop gone) ∧
        t.stationCounters = s.stationCounters.set p { s.stationCounters.get p with
          expired := satAdd (s.stationCounters.get p).expired gone } ∧
        (∀ q, FlagsRaised s t q fun f => q = p ∧
          (f = .expired ∨ (f = .saturated ∧ StationSaturates s t p))) ∧
        HoldsRemoved s t (fun h => if ∃ x ∈ (s.intake.get p).take gone, x.handle = h
          then (s.frame h).holds.withoutIntake p else (s.frame h).holds) ∧
        GeneratorAnswers s t ∧
        t = { s with
          clock := { s.clock with now := now }, store := t.store, mac := t.mac,
          intake := t.intake, stationCounters := t.stationCounters, attention := t.attention }

/-! ### Transmit -/

/-- The charge of a station is the granule count of the frames that carry at least one hold of its own, each frame
counted once (R16). TXOPEN of an ACTIVE station checks the length, the transmit allowance, and the slot, granules
and charge together; granted, it builds in the lowest FREE record with the first granules of the free list,
zeroed (R1, R2, R4, R17, R20, R112, R113). -/
def Obligations.TxopenOpensABuild : Prop :=
  ∀ (p : Station) (length : Half) (s : State) (n : Nat), Carries s p .txopen (halfBytes length) →
    (s.session p).state = .active → n = (length.toNat + 127) / 128 →
    s.charge p = ((List.finRange 128).map fun h =>
      if inSet (s.frame h).holds.build p || inSet (s.frame h).holds.intake p ||
        inSet (s.frame h).holds.read p || inSet (s.frame h).holds.post p
      then (s.frame h).chain.length else 0).sum ∧
    (length.toNat < 14 ∨ 1514 < length.toNat → ∃ t, exec (.txopen p length) s = .next t ∧
      Answered s t p .txopen .badArg [0] ∧ t = { s with ports := t.ports }) ∧
    (14 ≤ length.toNat → length.toNat ≤ 1514 →
      (8 ≤ s.transmitUse p ∨ s.store.freeList.length < n ∨
        (s.partition.installed.share.get p).quota.toNat < s.charge p + n ∨
        (∀ h, (s.frame h).state ≠ .free)) →
      ∃ t, exec (.txopen p length) s = .next t ∧
        Answered s t p .txopen .noRoom [0] ∧ t = { s with ports := t.ports }) ∧
    (14 ≤ length.toNat → length.toNat ≤ 1514 → s.transmitUse p < 8 → n ≤ s.store.freeList.length →
      s.charge p + n ≤ (s.partition.installed.share.get p).quota.toNat →
      ∀ h, (s.frame h).state = .free → (∀ k < h, (s.frame k).state ≠ .free) →
      ∃ t, exec (.txopen p length) s = .next t ∧
        Answered s t p .txopen .ok [BitVec.ofNat 8 h.val] ∧
        t.store.freeList = s.store.freeList.drop n ∧
        t.store.frames = s.store.frames.set h
          { state := .building, origin := some (.station p), length := length.toNat,
            chain := s.store.freeList.take n,
            holds := { Holds.none with build := setOf p }, result := none, truncated := false,
            tooLong := false } ∧
        (∀ a, readByte t.store.mem a =
          if (s.store.freeList.take n).any fun g => decide (a / 128 = g.val) then 0
          else readByte s.store.mem a) ∧
        GeneratorAnswers s t ∧ t = { s with store := t.store, mac := t.mac, ports := t.ports })

/-- TXWRITE of an ACTIVE station writes its data bytes into a build of its own at the offset, in one event, and
changes nothing else; bytes outside the span keep their values. A handle outside its build set is BADHANDLE, and
an empty span or one beyond the frame's length BADARG (R6, R114, R115). -/
def Obligations.TxwriteWritesItsSpan : Prop :=
  ∀ (p : Station) (handle : Byte) (offset : Half) (data : List Byte) (s : State),
    data.length ≤ 65535 →
    Carries s p .txwrite ([handle] ++ halfBytes offset ++ beBytes 2 data.length ++ data) →
    (s.session p).state = .active →
    ((∀ h : Handle, handle.toNat = h.val → s.inBuildSet p h = false) →
      ∃ t, exec (.txwrite p handle offset data) s = .next t ∧
        Answered s t p .txwrite .badHandle [] ∧ t = { s with ports := t.ports }) ∧
    ∀ h : Handle, handle.toNat = h.val → s.inBuildSet p h = true →
      ((data = [] ∨ 1513 < offset.toNat ∨ (s.frame h).length < offset.toNat + data.length) →
        ∃ t, exec (.txwrite p handle offset data) s = .next t ∧
          Answered s t p .txwrite .badArg [] ∧ t = { s with ports := t.ports }) ∧
      (data ≠ [] → offset.toNat ≤ 1513 → offset.toNat + data.length ≤ (s.frame h).length →
        ∃ t, exec (.txwrite p handle offset data) s = .next t ∧
          Answered s t p .txwrite .ok [] ∧
          (∀ a, (∀ i < data.length, (s.frame h).address (offset.toNat + i) ≠ some a) →
            readByte t.store.mem a = readByte s.store.mem a) ∧
          ((s.frame h).chain.Nodup → (s.frame h).length ≤ 128 * (s.frame h).chain.length →
            ∀ k < (s.frame h).length, t.byteAt h k =
              if offset.toNat ≤ k ∧ k < offset.toNat + data.length
              then inByte data (k - offset.toNat) else s.byteAt h k) ∧
          t = { s with store := { s.store with mem := t.store.mem }, ports := t.ports })

/-- TXPOST is taken in ACTIVE only and checks the handle, then the flags; a refused TXPOST leaves everything but
the port as it was, and nothing else refuses one (R116). -/
def Obligations.TxpostChecks : Prop :=
  ∀ (p : Station) (handle flags : Byte) (s : State), Carries s p .txpost [handle, flags] →
    ((s.session p).state ≠ .active → ∃ t, exec (.txpost p handle flags) s = .next t ∧
      Answered s t p .txpost .noSession [0, 0] ∧ t = { s with ports := t.ports }) ∧
    ((s.session p).state = .active →
      (∀ h : Handle, handle.toNat = h.val → s.inBuildSet p h = false) →
      ∃ t, exec (.txpost p handle flags) s = .next t ∧
        Answered s t p .txpost .badHandle [0, 0] ∧ t = { s with ports := t.ports }) ∧
    ((s.session p).state = .active → ∀ h : Handle, handle.toNat = h.val → s.inBuildSet p h = true →
      (2 < flags.toNat → ∃ t, exec (.txpost p handle flags) s = .next t ∧
        Answered s t p .txpost .badArg [0, 0] ∧ t = { s with ports := t.ports }) ∧
      (flags.toNat ≤ 2 → ∃ t n d, exec (.txpost p handle flags) s = .next t ∧
        Answered s t p .txpost .ok [n, d]))

/-- A post settles the frame, takes the next post number, is classified in local scope and admitted unless
WIRE-ONLY, with the counters and flags of every station and the hits of the matched entries, and goes to the post
queue, upon which the transmitter takes work, or ends CONTAINED (R39, R60, R92, R93, R117, R118, R142, Table 6-3).
The premises on the frame are those of `HoldsSound`. -/
def Obligations.TxpostRunsItsSteps : Prop :=
  ∀ (p : Station) (handle flags : Byte) (s : State) (h : Handle) (result : ClassResult) (wired : Bool)
    (delivery asleep : StationSet),
    Carries s p .txpost [handle, flags] → (s.session p).state = .active → handle.toNat = h.val →
    flags.toNat ≤ 2 → (s.frame h).state = .building →
    (s.frame h).holds = { Holds.none with build := setOf p } →
    result = s.resultOf h (.station p) (s.walkFrame h (.station p)) →
    wired = (flags == 1 || (flags == 0 && !(s.walkFrame h (.station p)).keepOff)) →
    delivery = (if flags = 1 then 0 else result.delivery) →
    asleep = (if flags = 1 then 0 else s.asleepOf h (.station p) (s.walkFrame h (.station p))) →
    ∃ (t u : State) (admitted : StationSet) (d : Nat), exec (.txpost p handle flags) s = .next t ∧
      (wired = true → TookWork u t) ∧ (wired = false → t = u) ∧
      Offered s u h delivery result.wake admitted ∧
      inSet admitted p = false ∧ d = (Station.all.filter (inSet admitted)).length ∧
      Answered s t p .txpost .ok [(s.posts.get p).number + 1, BitVec.ofNat 8 d] ∧
      u.posts = s.posts.set p
        { queue := (s.posts.get p).queue ++ if wired then
            [{ handle := h, number := (s.posts.get p).number + 1, deliveries := d,
               wireLength := max (s.frame h).length 60, started := false }] else [],
          completions := (s.posts.get p).completions ++ if wired then [] else
            [{ handle := h, number := (s.posts.get p).number + 1, outcome := .contained,
               deliveries := d, wireLength := 0 }],
          number := (s.posts.get p).number + 1 } ∧
      (∀ q, q ≠ p → u.stationCounters.get q =
        admissionCounters s delivery result.wake asleep admitted q) ∧
      u.stationCounters.get p = { s.stationCounters.get p with
        posted := satAdd (s.stationCounters.get p).posted 1,
        localDeliveries := satAdd (s.stationCounters.get p).localDeliveries d,
        contained := if wired then (s.stationCounters.get p).contained
          else satAdd (s.stationCounters.get p).contained 1 } ∧
      (∀ q, FlagsRaised s u q fun f => admissionFlag delivery result.wake asleep admitted q f ∨
        (f = .txdone ∧ q = p ∧ wired = false) ∨ (f = .saturated ∧ StationSaturates s u q)) ∧
      (u.sequence = if flags = 1 then s.sequence else s.sequence + 1) ∧
      (∀ i, u.entry i = if flags ≠ 1 ∧ i ∈ (s.walkFrame h (.station p)).matched
        then { s.entry i with hits := satAdd (s.entry i).hits 1 } else s.entry i) ∧
      (wired = false → admitted = 0 → u.frame h = Frame.free ∧
        u.store.freeList = s.store.freeList ++ (s.frame h).chain) ∧
      ((wired = true ∨ admitted ≠ 0) → u.store.freeList = s.store.freeList ∧
        u.frame h = { s.frame h with
          state := .settled,
          holds := { Holds.none with
            intake := admitted, post := if wired then setOf p else 0 },
          result := if flags = 1 then (s.frame h).result else some result }) ∧
      OnlyFrame s u h ∧ u.store.mem = s.store.mem ∧ GeneratorAnswers s u ∧
      u = { s with
        store := u.store, table := { s.table with entries := u.table.entries },
        sequence := u.sequence, intake := u.intake, posts := u.posts, mac := u.mac,
        attention := u.attention, stationCounters := u.stationCounters, ports := t.ports }

/-- TXCANCEL of an ACTIVE station releases a build, withdraws a post that has not started with a CANCELLED
completion, or answers TOOLATE for a started post and BADHANDLE for anything else (R121). TXDONE takes the oldest
completion entry, or answers EMPTY (R124). -/
def Obligations.TxcancelAndTxdone : Prop :=
  ∀ (p : Station) (s : State), (s.session p).state = .active →
    (∀ handle : Byte, Carries s p .txcancel [handle] →
      ((∀ h : Handle, handle.toNat = h.val → s.inBuildSet p h = false ∧
          ∀ x ∈ (s.posts.get p).queue, x.handle ≠ h) →
        ∃ t, exec (.txcancel p handle) s = .next t ∧
          Answered s t p .txcancel .badHandle [] ∧ t = { s with ports := t.ports }) ∧
      ∀ h : Handle, handle.toNat = h.val →
        (s.inBuildSet p h = true → ∃ t, exec (.txcancel p handle) s = .next t ∧
          Answered s t p .txcancel .ok [] ∧
          ReleasedOrKept s t h { (s.frame h).holds with
            build := eraseStation (s.frame h).holds.build p } ∧
          OnlyFrame s t h ∧ t.store.mem = s.store.mem ∧ GeneratorAnswers s t ∧
          t = { s with store := t.store, mac := t.mac, ports := t.ports }) ∧
        ∀ (e : PostEntry) (front back : List PostEntry), s.inBuildSet p h = false →
          (s.posts.get p).queue = front ++ e :: back → e.handle = h →
          (∀ x ∈ front, x.handle ≠ h) → (∀ x ∈ back, x.handle ≠ h) →
          (e.started = true → ∃ t, exec (.txcancel p handle) s = .next t ∧
            Answered s t p .txcancel .tooLate [] ∧ t = { s with ports := t.ports }) ∧
          (e.started = false → inSet (s.frame h).holds.post p = true →
            ∃ t, exec (.txcancel p handle) s = .next t ∧ Answered s t p .txcancel .ok [] ∧
              t.posts = s.posts.set p
                { queue := front ++ back,
                  completions := (s.posts.get p).completions ++
                    [{ handle := h, number := e.number, outcome := .cancelled,
                       deliveries := e.deliveries, wireLength := 0 }],
                  number := (s.posts.get p).number } ∧
              (∀ q, FlagsRaised s t q fun f => q = p ∧
                (f = .txdone ∨ (f = .saturated ∧ StationSaturates s t p))) ∧
              t.stationCounters = s.stationCounters.set p { s.stationCounters.get p with
                cancelled := satAdd (s.stationCounters.get p).cancelled 1 } ∧
              ReleasedOrKept s t h { (s.frame h).holds with
                post := eraseStation (s.frame h).holds.post p } ∧
              OnlyFrame s t h ∧ t.store.mem = s.store.mem ∧ GeneratorAnswers s t ∧
              t = { s with
                store := t.store, posts := t.posts, mac := t.mac, attention := t.attention,
                stationCounters := t.stationCounters, ports := t.ports })) ∧
    (Carries s p .txdone [] →
      ((s.posts.get p).completions = [] → ∃ t, exec (.txdone p) s = .next t ∧
        Answered s t p .txdone .empty [0, 0, 0, 0, 0, 0] ∧ t = { s with ports := t.ports }) ∧
      ∀ (c : Completion) (more : List Completion), (s.posts.get p).completions = c :: more →
        ∃ t, exec (.txdone p) s = .next t ∧
          Answered s t p .txdone .ok ([BitVec.ofNat 8 c.handle.val, c.number,
            (match c.outcome with
              | .sent => 0 | .contained => 1 | .cancelled => 2 | .linkLost => 3),
            BitVec.ofNat 8 c.deliveries] ++ beBytes 2 c.wireLength) ∧
          t = { s with
            posts := s.posts.set p { s.posts.get p with completions := more },
            ports := t.ports })

/-- The examination of the post queues goes by R126's cases at the station the pointer names: an empty queue clears
its deficit and credit mark and is passed over, the fourth in a row ending the examination; a station not yet
credited gains its weight times 256; a head frame that fits is chosen and its wire length taken off; one that does
not fit ends the visit, with the deficit kept and the credit mark cleared. With every weight at least 1 and no wire
length above 1514, it always chooses when a frame waits, and the chosen station was credited no more often than its
frame needs; with every queue empty it chooses none and clears every deficit and credit mark. The weights are the
installed ones and the lengths those of the front post entries (R125, R126). -/
def Obligations.ExaminationAlwaysChooses : Prop :=
  (∀ (s : State) (p : Station),
    s.weights.get p = (s.partition.installed.share.get p).weight.toNat ∧
    s.headLengths.get p = (s.posts.get p).queue.head?.map fun e => e.wireLength) ∧
  ∀ (weights : Per Nat) (heads : Per (Option Nat)) (v : Scheduler),
    (∀ (visits empties : Nat) (passed : Scheduler), heads.get v.pointer = none →
      passed = { pointer := v.pointer.next, deficit := v.deficit.set v.pointer 0,
                 credited := v.credited.set v.pointer false } →
      examine weights heads (visits + 1) empties v =
        if empties + 1 = 4 then (none, passed)
        else examine weights heads visits (empties + 1) passed) ∧
    (∀ (visits empties len deficit : Nat), heads.get v.pointer = some len →
      deficit = (if v.credited.get v.pointer then v.deficit.get v.pointer
        else v.deficit.get v.pointer + weights.get v.pointer * 256) →
      (len ≤ deficit → examine weights heads (visits + 1) empties v =
        (some v.pointer, { pointer := v.pointer, deficit := v.deficit.set v.pointer (deficit - len),
                           credited := v.credited.set v.pointer true })) ∧
      (deficit < len → examine weights heads (visits + 1) empties v =
        examine weights heads visits 0
          { pointer := v.pointer.next, deficit := v.deficit.set v.pointer deficit,
            credited := v.credited.set v.pointer false })) ∧
    ((∀ p, 1 ≤ weights.get p) → (∀ p len, heads.get p = some len → len ≤ 1514) →
      (∃ p, heads.get p ≠ none) → ∃ p len w first more,
      examine weights heads examinationBound 0 v = (some p, w) ∧ heads.get p = some len ∧
      w.pointer = p ∧ w.credited.get p = true ∧
      first = (if v.credited.get p then v.deficit.get p
        else v.deficit.get p + weights.get p * 256) ∧
      w.deficit.get p + len = first + more * (weights.get p * 256) ∧
      (more ≠ 0 → first + (more - 1) * (weights.get p * 256) < len)) ∧
    ((∀ p, heads.get p = none) → examine weights heads examinationBound 0 v =
      (none, { pointer := v.pointer, deficit := Per.const 0, credited := Per.const false }))

/-- While a station frame is sent, the wire carries its stored bytes, zero bytes up to 60, and the check sequence over
both; an IDLE transmitter sends nothing (R127, R138, R141). TRANSMISSION_COMPLETE ends the frame: while it carries its
origin's post hold, the started front entry becomes a SENT completion; the link counters rise in either case, the
holds go, the frame is released if none is left, the generator answers the free-list length, and then, whether or not
the frame was released, the transmitter takes work (R12 to R15, R128, R142, R145). The event brings the clock to its
instant (the model's choice, log 2), and with no station frame being sent it cannot occur (log 5). -/
def Obligations.TransmissionCompleteReports : Prop :=
  ∀ s : State,
    (s.mac.tx = .idle → s.onWire = none) ∧
    (∀ p h endsAt, s.mac.tx = .station p h endsAt → ∃ body : List Byte,
      s.onWire = some (body ++ checkBytes (checkSequence body)) ∧
      body.length = max (s.frame h).length 60 ∧
      ∀ k < body.length, inByte body k = if k < (s.frame h).length then s.byteAt h k else 0) ∧
    ((∀ p h e, s.mac.tx ≠ .station p h e) → exec .transmissionComplete s = .next s) ∧
    ∀ (p : Station) (h : Handle) (endsAt : Nat), s.mac.tx = .station p h endsAt →
      (s.frame h).holds.wire = true →
      ∃ t u, exec .transmissionComplete s = .next t ∧ TookWork u t ∧
        u.linkCounters = { s.linkCounters with
          framesSent := satAdd s.linkCounters.framesSent 1,
          bytesSent := satAdd s.linkCounters.bytesSent (max (s.frame h).length 60) } ∧
        u.posts = postsEnded s p h .sent (fun e => e.wireLength) ∧
        u.stationCounters = (if inSet (s.frame h).holds.post p
          then s.stationCounters.set p { s.stationCounters.get p with
            sent := satAdd (s.stationCounters.get p).sent 1 }
          else s.stationCounters) ∧
        (∀ q, FlagsRaised s u q fun f => (f = .txdone ∧ q = p ∧ s.reported p h ≠ none) ∨
          (f = .saturated ∧ (LinkSaturates s u ∨ StationSaturates s u q))) ∧
        ReleasedOrKept s u h { (s.frame h).holds with
          post := eraseStation (s.frame h).holds.post p, wire := false } ∧
        OnlyFrame s u h ∧ u.store.mem = s.store.mem ∧
        GeneratorAnswers { s with mac := { s.mac with tx := .idle } } u ∧
        u = { s with
          clock := { s.clock with now := max s.clock.now endsAt }, store := u.store,
          posts := u.posts, mac := u.mac, attention := u.attention,
          linkCounters := u.linkCounters, stationCounters := u.stationCounters }

/-! ### The link side -/

/-- LINKUP and the full-duplex indication move the link when a change leaves both asserted or deasserts one, and the
comparison after a device reset or a speed change moves it UP; a change of SPEED100 while UP is a loss of the
link, with the comparison to come (R134 to R137). A change to the level a pin has, and a comparison that is not
to come, cannot occur (log 5). -/
def Obligations.TheLinkMoves : Prop :=
  ∀ s : State,
    (∀ (input : PhyInput) (level : Bool) (u : State),
      u = (match input with
        | .linkup => { s with pins := { s.pins with linkup := level } }
        | .fullDuplex => { s with pins := { s.pins with fullDuplex := level } }) →
      (u = s → exec (.phyInputChange input level) s = .next s) ∧
      (u ≠ s →
        (s.mac.link = .down → u.pins.linkup = true → u.pins.fullDuplex = true →
          ∃ t speed, exec (.phyInputChange input level) s = .next t ∧ MovedUp u t speed) ∧
        (s.mac.link ≠ .down → (u.pins.linkup = false ∨ u.pins.fullDuplex = false) →
          ∃ t, exec (.phyInputChange input level) s = .next t ∧ MovedDown u t) ∧
        ((s.mac.link = .down ↔ (u.pins.linkup = false ∨ u.pins.fullDuplex = false)) →
          exec (.phyInputChange input level) s = .next u))) ∧
    (∀ (level : Bool) (u : State), u = { s with pins := { s.pins with speed100 := level } } →
      (u = s → exec (.speedChange level) s = .next s) ∧
      (u ≠ s → s.mac.link = .down → exec (.speedChange level) s = .next u) ∧
      (u ≠ s → s.mac.link ≠ .down → ∃ t, exec (.speedChange level) s = .next t ∧
        MovedDown { u with mac := { u.mac with comparePending := true } } t)) ∧
    (s.mac.comparePending = false → exec .linkInputCompare s = .next s) ∧
    (s.mac.comparePending = true →
      (s.mac.link = .down → s.pins.linkup = true → s.pins.fullDuplex = true →
        ∃ t speed, exec .linkInputCompare s = .next t ∧
          MovedUp { s with mac := { s.mac with comparePending := false } } t speed) ∧
      (s.mac.link ≠ .down ∨ s.pins.linkup = false ∨ s.pins.fullDuplex = false →
        exec .linkInputCompare s = .next { s with mac := { s.mac with comparePending := false } }))

/-- While a flow-control frame is sent, the wire carries the 60 bytes of R141 with the request's quanta value and the
check sequence over them. FLOW_CONTROL_COMPLETE counts the frame sent and the transmitter takes work;
PAUSE_TIMER_EXPIRY clears the timer and the transmitter takes work when it is IDLE; REFRESH_TIMER_EXPIRY requests the
installed quanta again and restarts its timer (R140 to R143, R146). Each brings the clock to its instant (log 2),
and none occurs when its timer does not run (log 5). -/
def Obligations.LinkTimersExpire : Prop :=
  ∀ s : State,
    (∀ (q : Half) (endsAt : Nat) (body : List Byte), s.mac.tx = .flow q endsAt →
      body = [0x01, 0x80, 0xC2, 0x00, 0x00, 0x01, 0, 0, 0, 0, 0, 0, 0x88, 0x08, 0x00, 0x01] ++
        beBytes 2 q.toNat ++ List.replicate 42 0 →
      body.length = 60 ∧ s.onWire = some (body ++ checkBytes (checkSequence body))) ∧
    ((∀ q e, s.mac.tx ≠ .flow q e) → exec .flowControlComplete s = .next s) ∧
    (∀ (q : Half) (endsAt : Nat), s.mac.tx = .flow q endsAt →
      ∃ t u, exec .flowControlComplete s = .next t ∧ TookWork u t ∧
        SaturatedIf (reachesTop s.linkCounters.pauseSent 1) s u ∧
        u = { s with
          clock := { s.clock with now := max s.clock.now endsAt },
          mac := { s.mac with tx := .idle },
          linkCounters := { s.linkCounters with
            pauseSent := satAdd s.linkCounters.pauseSent 1 },
          attention := u.attention }) ∧
    (s.mac.pauseUntil = none → exec .pauseTimerExpiry s = .next s) ∧
    (∀ instant : Nat, s.mac.pauseUntil = some instant →
      ∃ t, exec .pauseTimerExpiry s = .next t ∧ TookWork { s with
        clock := { s.clock with now := max s.clock.now instant },
        mac := { s.mac with pauseUntil := none } } t) ∧
    (s.mac.link = .down ∨ s.mac.gen.refreshAt = none → exec .refreshTimerExpiry s = .next s) ∧
    ∀ (speed : Speed) (instant now : Nat), s.mac.link = .up speed →
      s.mac.gen.refreshAt = some instant → now = max s.clock.now instant →
      exec .refreshTimerExpiry s = .next { s with
        clock := { s.clock with now := now },
        mac := { s.mac with
          tx := if s.mac.tx = .idle
            then .flow s.partition.installed.quanta (now + 672 * speed.bitTime) else s.mac.tx,
          gen := { s.mac.gen with
            pending := if s.mac.tx = .idle then none else some s.partition.installed.quanta,
            refreshAt :=
              some (now + s.partition.installed.quanta.toNat * (256 * speed.bitTime)) } } }

/-! ### The partition agreement -/

/-- A partition record is valid exactly when every field lies within Table 8-1, the allowances sum to at most 64 and
pause-on is below pause-off (R152). PROPOSE of an ACTIVE station is answered BUSY while a proposal is open and
BADARG for an invalid record; otherwise it takes the next number and opens the proposal to the other ACTIVE
stations for 200 ms, or installs the record at once when there is none (R153, R154). -/
def Obligations.ProposeOpensOrInstalls : Prop :=
  ∀ (p : Station) (record : PartitionRecord) (s : State), Carries s p .propose (recordBytes record) →
    (s.session p).state = .active →
    (recordValid record = true ↔
      (∀ q, (record.share.get q).quota.toNat ≤ 512 ∧ (record.share.get q).allowance.toNat ≤ 64 ∧
        1 ≤ (record.share.get q).weight.toNat ∧ (record.share.get q).weight.toNat ≤ 16) ∧
      record.reserve.toNat ≤ 64 ∧ record.pauseOn.toNat ≤ 511 ∧ 1 ≤ record.pauseOff.toNat ∧
      record.pauseOff.toNat ≤ 512 ∧ 1 ≤ record.quanta.toNat ∧ record.holdLimit.toNat ≤ 4095 ∧
      (record.share.get .s0).allowance.toNat + (record.share.get .s1).allowance.toNat +
        (record.share.get .s2).allowance.toNat + (record.share.get .s3).allowance.toNat ≤ 64 ∧
      record.pauseOn.toNat < record.pauseOff.toNat) ∧
    (s.partition.proposal ≠ none → ∃ t, exec (.propose p record) s = .next t ∧
      Answered s t p .propose .busy [0, 0, 0] ∧ t = { s with ports := t.ports }) ∧
    (s.partition.proposal = none → recordValid record = false →
      ∃ t, exec (.propose p record) s = .next t ∧
        Answered s t p .propose .badArg [0, 0, 0] ∧ t = { s with ports := t.ports }) ∧
    ∀ (number : Half) (required : StationSet), s.partition.proposal = none →
      recordValid record = true →
      number = (if s.partition.counter = 0xFFFF then 1 else s.partition.counter + 1) →
      (∀ q, inSet required q = (decide ((s.session q).state = .active) && decide (q ≠ p))) →
      (required = 0 → ∃ t, exec (.propose p record) s = .next t ∧
        Answered s t p .propose .ok (beBytes 2 number.toNat ++ [1]) ∧
        Installed s t number record ∧ t.partition.counter = number ∧ t.sessions = s.sessions) ∧
      (required ≠ 0 → ∃ t, exec (.propose p record) s = .next t ∧
        Answered s t p .propose .ok (beBytes 2 number.toNat ++ [0]) ∧
        Raised s t .proposal (fun q => inSet required q = true) ∧
        t = { s with
          partition := { s.partition with
            counter := number,
            proposal := some
              { number := number, proposer := p, record := record, required := required,
                endorsed := 0, expiry := s.clock.now + 20000000 } },
          attention := t.attention, ports := t.ports })

/-- ENDORSE and OBJECT of an ACTIVE station are answered STALE when their number is not the open proposal's and
NOTNEEDED when the station is not required or has endorsed; otherwise ENDORSE adds the station and installs the
record when the endorsed set is the required set, and OBJECT abandons the proposal, as its expiry does (R155 to
R157, R159, R160). -/
def Obligations.VoicesAndExpiry : Prop :=
  ∀ s : State,
    (∀ (p : Station) (number : Half), (s.session p).state = .active →
      (Carries s p .endorse (halfBytes number) →
        ((∀ o, s.partition.proposal = some o → o.number ≠ number) →
          ∃ t, exec (.endorse p number) s = .next t ∧
            Answered s t p .endorse .stale [] ∧ t = { s with ports := t.ports }) ∧
        ∀ o, s.partition.proposal = some o → o.number = number →
          (inSet o.required p = false ∨ inSet o.endorsed p = true →
            ∃ t, exec (.endorse p number) s = .next t ∧
              Answered s t p .endorse .notNeeded [] ∧ t = { s with ports := t.ports }) ∧
          (inSet o.required p = true → inSet o.endorsed p = false →
            (insertStation o.endorsed p = o.required → ∃ t, exec (.endorse p number) s = .next t ∧
              Answered s t p .endorse .ok [] ∧ Installed s t o.number o.record ∧
              t.partition.counter = s.partition.counter ∧ t.sessions = s.sessions) ∧
            (insertStation o.endorsed p ≠ o.required → ∃ t, exec (.endorse p number) s = .next t ∧
              Answered s t p .endorse .ok [] ∧
              t = { s with
                partition := { s.partition with
                  proposal := some { o with endorsed := insertStation o.endorsed p } },
                ports := t.ports }))) ∧
      (Carries s p .object (halfBytes number) →
        ((∀ o, s.partition.proposal = some o → o.number ≠ number) →
          ∃ t, exec (.object p number) s = .next t ∧
            Answered s t p .object .stale [] ∧ t = { s with ports := t.ports }) ∧
        ∀ o, s.partition.proposal = some o → o.number = number →
          (inSet o.required p = false ∨ inSet o.endorsed p = true →
            ∃ t, exec (.object p number) s = .next t ∧
              Answered s t p .object .notNeeded [] ∧ t = { s with ports := t.ports }) ∧
          (inSet o.required p = true → inSet o.endorsed p = false →
            ∃ t, exec (.object p number) s = .next t ∧ Answered s t p .object .ok [] ∧
              Raised s t .abandoned (fun q => q = o.proposer ∨ inSet o.required q = true) ∧
              t = { s with
                partition := { s.partition with
                  proposal := none, lastOutcome := some (.abandoned o.number) },
                attention := t.attention, ports := t.ports }))) ∧
    (s.partition.proposal = none → exec .proposalExpiry s = .next s) ∧
    ∀ o, s.partition.proposal = some o → ∃ t, exec .proposalExpiry s = .next t ∧
      Raised s t .abandoned (fun q => q = o.proposer ∨ inSet o.required q = true) ∧
      t = { s with
        clock := { s.clock with now := max s.clock.now o.expiry },
        partition := { s.partition with
          proposal := none, lastOutcome := some (.abandoned o.number) },
        attention := t.attention }

/-! ### Attention and statistics -/

/-- EVENTS of a station in session returns its flags and mask and clears the flags, so ATTN is released (R169).
SNAPSHOT returns the eleven counters of the station and the fourteen link counters, and with the clear option sets
the station's to 0; another option value is BADARG (R175). -/
def Obligations.EventsAndSnapshot : Prop :=
  ∀ (p : Station) (s : State),
    (Carries s p .events [] → (s.session p).state ≠ .offline → ∃ t, exec (.events p) s = .next t ∧
      Answered s t p .events .ok (beBytes 2 (s.attention.get p).flags.toNat ++
        beBytes 2 (s.attention.get p).mask.toNat) ∧
      t = { s with
        attention := s.attention.set p
          { flags := 0, mask := (s.attention.get p).mask, attn := false },
        ports := t.ports }) ∧
    ∀ option : Byte, Carries s p .snapshot [option] → (s.session p).state ≠ .suspended →
      (2 ≤ option.toNat → ∃ t, exec (.snapshot p option) s = .next t ∧
        Answered s t p .snapshot .badArg (zeros 100) ∧ t = { s with ports := t.ports }) ∧
      (option.toNat ≤ 1 → ∃ (t : State) (data : List Byte), exec (.snapshot p option) s = .next t ∧
        Answered s t p .snapshot .ok data ∧
        data = ([StationCounter.delivered, .wakeDeliveries, .queueFullDrops, .quotaDrops,
            .asleepDrops, .expired, .posted, .localDeliveries, .sent, .contained, .cancelled].flatMap
            fun c => beBytes 4 ((s.stationCounters.get p).get c).toNat) ++
          ([LinkCounter.goodFrames, .goodBytes, .fcsErrors, .runts, .tooLong, .noSlot, .truncated,
            .aborted, .undelivered, .pauseReceived, .pauseSent, .framesSent, .bytesSent,
            .linkLost].flatMap fun c => beBytes 4 (s.linkCounters.get c).toNat) ∧
        t = { s with
          stationCounters := if option = 1
            then s.stationCounters.set p ⟨0, 0, 0, 0, 0, 0, 0, 0, 0, 0, 0⟩ else s.stationCounters,
          ports := t.ports })

/-- SETMASK replaces the mask of a station in session whole and brings ATTN up to date, changes no flag, and is
answered BADARG with the mask kept when it names a flag that does not exist; in OFFLINE it is answered NOSESSION
(R168). -/
def Obligations.SetmaskReplacesTheMask : Prop :=
  ∀ (p : Station) (mask : Half) (s : State), Carries s p .setmask (halfBytes mask) →
    ((s.session p).state = .offline → ∃ t, exec (.setmask p mask) s = .next t ∧
      Answered s t p .setmask .noSession [] ∧ t = { s with ports := t.ports }) ∧
    ((s.session p).state ≠ .offline → (∃ k, 11 ≤ k ∧ mask.getLsbD k = true) →
      ∃ t, exec (.setmask p mask) s = .next t ∧
        Answered s t p .setmask .badArg [] ∧ t = { s with ports := t.ports }) ∧
    ((s.session p).state ≠ .offline → (∀ k, 11 ≤ k → mask.getLsbD k = false) →
      ∃ t, exec (.setmask p mask) s = .next t ∧ Answered s t p .setmask .ok [] ∧
        (t.attention.get p).mask.toNat = mask.toNat ∧
        (t.attention.get p).flags = (s.attention.get p).flags ∧
        ((t.attention.get p).attn = true ↔
          ∃ f : Flag, hasFlag (s.attention.get p).flags f = true ∧ mask.getLsbD f.bit = true) ∧
        t = { s with
          attention := s.attention.set p (t.attention.get p), ports := t.ports })

/-- A counter takes the sum of its value and the step, or holds at 4 294 967 295 when the sum is greater; the step
that takes a counter there from a lower value sets SATURATED, at the counter's station, or at every station in
session for a link counter (R171, R174). -/
def Obligations.CountersHoldAtTheTop : Prop :=
  (∀ (c : Word) (step : Nat),
    (c.toNat + step ≤ 4294967295 → (satAdd c step).toNat = c.toNat + step) ∧
    (4294967295 < c.toNat + step → (satAdd c step).toNat = 4294967295) ∧
    (reachesTop c step = true ↔ c.toNat < 4294967295 ∧ (satAdd c step).toNat = 4294967295)) ∧
  ∀ (s : State) (step : Nat),
    (∀ c : LinkCounter,
      (s.countLink c step).linkCounters = s.linkCounters.set c (satAdd (s.linkCounters.get c) step) ∧
      SaturatedIf (reachesTop (s.linkCounters.get c) step) s (s.countLink c step)) ∧
    ∀ (p : Station) (c : StationCounter),
      (s.countStation p c step).stationCounters = s.stationCounters.set p
        ((s.stationCounters.get p).set c (satAdd ((s.stationCounters.get p).get c) step)) ∧
      (reachesTop ((s.stationCounters.get p).get c) step = true →
        Raised s (s.countStation p c step) .saturated (fun q => q = p)) ∧
      (reachesTop ((s.stationCounters.get p).get c) step = false →
        (s.countStation p c step).attention = s.attention)

/-! ### Invariants -/

/-- The hub right after device reset meets every invariant below. -/
def Obligations.InvariantsHoldAtReset : Prop :=
  AttentionSound State.reset ∧ MemorySound State.reset ∧ ChainsSound State.reset ∧
    GranulesSound State.reset ∧ HoldsSound State.reset ∧ SessionsSound State.reset ∧
    QueuesBounded State.reset ∧ PartitionSound State.reset ∧ GeneratorSound State.reset ∧
    WorkConserved State.reset

/-- Every step keeps ATTN in line with the flags and the mask, and an OFFLINE station without either (R82, R165,
R167). -/
def Obligations.StepKeepsAttentionSound : Prop :=
  ∀ s t : State, AttentionSound s → step s = .next t → AttentionSound t

/-- Every step keeps the granule memory in its canonical form, and every chain as long as its frame calls for
(R3, R6). -/
def Obligations.StepKeepsContentsHoused : Prop :=
  ∀ s t : State, MemorySound s ∧ ChainsSound s → step s = .next t → MemorySound t ∧ ChainsSound t

/-- Every step keeps each granule exactly once in the free list or in one chain, and a record FREE exactly while it
carries no hold (R1, R3, R7). -/
def Obligations.StepKeepsGranulesSound : Prop :=
  ∀ s t : State, GranulesSound s → step s = .next t → GranulesSound t

/-- Every step keeps each hold with what it stands for: the queues' entries, the reads under way, the receiver and
the transmitter (R8 to R13, R95, R127). -/
def Obligations.StepKeepsHoldsSound : Prop :=
  ∀ s t : State, HoldsSound s → step s = .next t → HoldsSound t

/-- Every step keeps an OFFLINE station without a share of the hub, and accept sets to stations in session (R67,
R68, R80, R83). -/
def Obligations.StepKeepsSessionsSound : Prop :=
  ∀ s t : State, SessionsSound s → step s = .next t → SessionsSound t

/-- Every step keeps the transmit use of a station at most 8 and its intake queue at most 32 entries long (R95,
R112). -/
def Obligations.StepKeepsQueuesBounded : Prop :=
  ∀ s t : State, QueuesBounded s → step s = .next t → QueuesBounded t

/-- Every step keeps the installed record valid and an open proposal as Table 8-3 describes it (R152, R153,
R158). -/
def Obligations.StepKeepsPartitionSound : Prop :=
  ∀ s t : State, PartitionSound s → step s = .next t → PartitionSound t

/-- Every step keeps the flow-control generator in line with the free list and the thresholds, and the Link MAC at
rest while the link is DOWN (R136, R144 to R148). -/
def Obligations.StepKeepsGeneratorSound : Prop :=
  ∀ s t : State, GeneratorSound s → step s = .next t → GeneratorSound t

/-- Every step keeps the transmitter working while a post waits, the link is UP and no pause is in force, and the
deficits within R126's bounds (R126, R142). -/
def Obligations.StepKeepsWorkConserved : Prop :=
  ∀ s t : State, WorkConserved s → step s = .next t → WorkConserved t
end

