-- ==== Sys2Proof/Laws/Basic.lean ====
section
/-! SUPPORT. Laws of the plain types: one value per station, fixed tables, sets of stations, and numbers as
bytes. -/

namespace Sys2Proof

/-! ### Stations -/

theorem Station.mem_all (p : Station) : p ∈ Station.all := by cases p <;> decide

theorem Station.forall_iff {P : Station → Prop} :
    (∀ p, P p) ↔ P .s0 ∧ P .s1 ∧ P .s2 ∧ P .s3 :=
  ⟨fun h => ⟨h _, h _, h _, h _⟩, fun h p => by cases p <;> simp [h]⟩

theorem Station.exists_iff {P : Station → Prop} :
    (∃ p, P p) ↔ P .s0 ∨ P .s1 ∨ P .s2 ∨ P .s3 :=
  ⟨fun ⟨p, h⟩ => by cases p <;> simp [h], fun h => by rcases h with h | h | h | h <;> exact ⟨_, h⟩⟩

/-! ### One value per station -/

@[simp] theorem Per.get_set_self {α : Type} (v : Per α) (p : Station) (a : α) :
    (v.set p a).get p = a := by cases p <;> rfl

theorem Per.get_set_ne {α : Type} (v : Per α) {p q : Station} (a : α) (h : q ≠ p) :
    (v.set p a).get q = v.get q := by
  cases p <;> cases q <;> first | rfl | exact absurd rfl h

theorem Per.get_set {α : Type} (v : Per α) (p q : Station) (a : α) :
    (v.set p a).get q = if q = p then a else v.get q := by
  cases p <;> cases q <;> rfl

@[simp] theorem Per.get_const {α : Type} (a : α) (p : Station) : (Per.const a).get p = a := by
  cases p <;> rfl

@[simp] theorem Per.get_of {α : Type} (f : Station → α) (p : Station) : (Per.of f).get p = f p := by
  cases p <;> rfl

theorem Per.ext_get {α : Type} {v w : Per α} (h : ∀ p, v.get p = w.get p) : v = w := by
  cases v; cases w
  have h0 := h .s0; have h1 := h .s1; have h2 := h .s2; have h3 := h .s3
  simp only [Per.get] at h0 h1 h2 h3
  simp [h0, h1, h2, h3]

@[simp] theorem Per.set_get {α : Type} (v : Per α) (p : Station) : v.set p (v.get p) = v := by
  cases p <;> rfl

@[simp] theorem Per.set_set {α : Type} (v : Per α) (p : Station) (a b : α) :
    (v.set p a).set p b = v.set p b := by cases p <;> rfl

/-! ### Tables -/

@[simp] theorem Table.get_set_self {n : Nat} {α : Type} (t : Table n α) (i : Fin n) (a : α) :
    (t.set i a).get i = a := by simp [Table.get, Table.set]

theorem Table.get_set_ne {n : Nat} {α : Type} (t : Table n α) {i j : Fin n} (a : α) (h : j ≠ i) :
    (t.set i a).get j = t.get j := by
  have hv : i.val ≠ j.val := fun e => h (Fin.ext e.symm)
  simp [Table.get, Table.set, hv]

theorem Table.get_set {n : Nat} {α : Type} (t : Table n α) (i j : Fin n) (a : α) :
    (t.set i a).get j = if j = i then a else t.get j := by
  split
  · next h => subst h; simp
  · next h => exact t.get_set_ne a h

@[simp] theorem Table.get_mapIdx {n : Nat} {α : Type} (f : Nat → α → α) (t : Table n α) (i : Fin n) :
    (t.mapIdx f).get i = f i.val (t.get i) := by simp [Table.get, Table.mapIdx]

@[simp] theorem Table.get_zipWith {n : Nat} {α β γ : Type} (f : α → β → γ) (t : Table n α)
    (u : Table n β) (i : Fin n) : (Table.zipWith f t u).get i = f (t.get i) (u.get i) := by
  simp [Table.get, Table.zipWith]

@[simp] theorem Table.get_const {n : Nat} {α : Type} (a : α) (i : Fin n) :
    (Table.const n a).get i = a := by simp [Table.get, Table.const]

theorem Table.mem_rows {n : Nat} {α : Type} {t : Table n α} {a : α} :
    a ∈ t.rows ↔ ∃ i, t.get i = a := by
  constructor
  · intro h
    obtain ⟨k, hk, e⟩ := List.mem_iff_getElem.mp h
    exact ⟨⟨k, t.len ▸ hk⟩, e⟩
  · rintro ⟨i, rfl⟩
    exact List.getElem_mem _

theorem Table.ext_get {n : Nat} {α : Type} {t u : Table n α} (h : ∀ i, t.get i = u.get i) : t = u := by
  obtain ⟨r, hr⟩ := t
  obtain ⟨w, hw⟩ := u
  have : r = w := List.ext_getElem (hr.trans hw.symm) fun k h1 _ => h ⟨k, hr ▸ h1⟩
  subst this
  rfl

@[simp] theorem Table.set_get {n : Nat} {α : Type} (t : Table n α) (i : Fin n) :
    t.set i (t.get i) = t := Table.ext_get fun j => by
  rw [Table.get_set]; split
  · next h => rw [h]
  · rfl

namespace Machine

/-! ### Sets of stations -/

@[simp] theorem inSet_setOf (p q : Station) : inSet (setOf p) q = decide (p = q) := by
  cases p <;> cases q <;> decide

@[simp] theorem inSet_empty (p : Station) : inSet (0#4) p = false := by cases p <;> decide

@[simp] theorem inSet_or (a b : StationSet) (p : Station) :
    inSet (a ||| b) p = (inSet a p || inSet b p) := by simp [inSet]

@[simp] theorem inSet_and (a b : StationSet) (p : Station) :
    inSet (a &&& b) p = (inSet a p && inSet b p) := by simp [inSet]

@[simp] theorem inSet_not (a : StationSet) (p : Station) : inSet (~~~a) p = !inSet a p := by
  cases p <;> simp [inSet, Station.idx]

theorem inSet_insert (a : StationSet) (p q : Station) :
    inSet (insertStation a p) q = (inSet a q || decide (p = q)) := by simp [insertStation]

theorem inSet_erase (a : StationSet) (p q : Station) :
    inSet (eraseStation a p) q = (inSet a q && !decide (p = q)) := by simp [eraseStation]

@[simp] theorem inSet_insert_self (a : StationSet) (p : Station) : inSet (insertStation a p) p = true := by
  simp [inSet_insert]

@[simp] theorem inSet_erase_self (a : StationSet) (p : Station) : inSet (eraseStation a p) p = false := by
  simp [inSet_erase]

@[simp] theorem inSet_stationsWhere (c : Station → Bool) (p : Station) :
    inSet (stationsWhere c) p = c p := by
  simp only [stationsWhere, Station.all, List.foldl]
  cases h0 : c .s0 <;> cases h1 : c .s1 <;> cases h2 : c .s2 <;> cases h3 : c .s3 <;>
    cases p <;> simp [h0, h1, h2, h3, inSet_insert]

theorem set_ext {a b : StationSet} (h : ∀ p, inSet a p = inSet b p) : a = b := by
  apply BitVec.eq_of_getLsbD_eq
  intro i hi
  match i, hi with
  | 0, _ => exact h .s0
  | 1, _ => exact h .s1
  | 2, _ => exact h .s2
  | 3, _ => exact h .s3

theorem set_eq_empty_iff {a : StationSet} : a = 0 ↔ ∀ p, inSet a p = false :=
  ⟨fun h p => by simp [h], fun h => set_ext fun p => by simp [h p]⟩

/-! ### Holds -/

theorem Holds.isEmpty_iff {h : Holds} : h.isEmpty = true ↔
    h.fill = false ∧ h.build = 0 ∧ h.intake = 0 ∧ h.read = 0 ∧ h.post = 0 ∧ h.wire = false := by
  cases h; simp [Holds.isEmpty, Holds.none]

@[simp] theorem Holds.none_isEmpty : Holds.none.isEmpty = true := rfl

@[simp] theorem Holds.none_heldBy (p : Station) : Holds.none.heldBy p = false := by cases p <;> rfl

end Machine

/-! ### Numbers as bytes (Chapter 11) -/

@[simp] theorem beBytes_length (n v : Nat) : (beBytes n v).length = n := by
  induction n generalizing v with
  | zero => rfl
  | succ n ih => simp [beBytes, ih]

theorem beNat_append (a b : List Byte) : beNat (a ++ b) = beNat a * 256 ^ b.length + beNat b := by
  induction b using List.reverseRecOn with
  | nil => simp [beNat]
  | append_singleton b x ih =>
    simp only [beNat, ← List.append_assoc, List.foldl_append, List.foldl_cons, List.foldl_nil,
      List.length_append, List.length_singleton] at ih ⊢
    rw [ih]; ring

@[simp] theorem beNat_beBytes (n v : Nat) : beNat (beBytes n v) = v % 256 ^ n := by
  induction n generalizing v with
  | zero => simp [beBytes, beNat, Nat.mod_one]
  | succ n ih =>
    rw [beBytes, beNat_append, ih]
    have : beNat [BitVec.ofNat 8 v] = v % 256 := by simp [beNat]
    rw [this]
    simp only [List.length_singleton, pow_one]
    rw [pow_succ, Nat.mul_comm (256 ^ n) 256, Nat.mod_mul]
    ring

theorem beBytes_beNat (l : List Byte) : beBytes l.length (beNat l) = l := by
  induction l using List.reverseRecOn with
  | nil => rfl
  | append_singleton l x ih =>
    have hx : x.toNat < 256 := x.isLt
    simp only [List.length_append, List.length_singleton, beBytes, beNat_append, pow_one]
    have h1 : beNat [x] = x.toNat := by simp [beNat]
    rw [h1]
    have h2 : (beNat l * 256 + x.toNat) / 256 = beNat l := by omega
    rw [h2, ih]
    congr 2
    apply BitVec.eq_of_toNat_eq
    simp only [BitVec.toNat_ofNat]
    omega

namespace Machine

@[simp] theorem halfBytes_length (h : Half) : (halfBytes h).length = 2 := by simp [halfBytes]

@[simp] theorem wordBytes_length (w : Word) : (wordBytes w).length = 4 := by simp [wordBytes]

@[simp] theorem beNat_halfBytes (h : Half) : beNat (halfBytes h) = h.toNat := by
  rw [halfBytes, beNat_beBytes]; exact Nat.mod_eq_of_lt h.isLt

theorem halfBytes_eq (h : Half) :
    halfBytes h = [BitVec.ofNat 8 (h.toNat / 256), BitVec.ofNat 8 h.toNat] := rfl

@[simp] theorem zeros_length (n : Nat) : (zeros n).length = n := by simp [zeros]

/-- A half at an offset of an input comes back whole. -/
theorem inHalf_append (front back : List Byte) (h : Half) :
    inHalf (front ++ halfBytes h ++ back) front.length = h := by
  have : inSpan (front ++ halfBytes h ++ back) front.length 2 = halfBytes h := by
    rw [inSpan, List.append_assoc, List.drop_left, List.take_left' (halfBytes_length h)]
  rw [inHalf, this, beNat_halfBytes, BitVec.ofNat_toNat, BitVec.setWidth_eq]

/-- A byte at an offset of an input. -/
theorem inByte_append (front back : List Byte) (b : Byte) :
    inByte (front ++ b :: back) front.length = b := by
  simp [inByte]

end Machine

end Sys2Proof
end

