-- ==== Sys2Proof/Laws/State.lean ====
section
/-! SUPPORT. What each plain update of the state leaves as it was: one lemma per update, a conjunction with one
equation for each field it keeps, each true by rfl and a rewrite rule of its own for simp. -/

namespace Sys2Proof.Machine

@[simp] theorem State.setFrame_keeps (s : State) (h : Handle) (f : Frame) :
    (s.setFrame h f).clock = s.clock ∧ (s.setFrame h f).pins = s.pins ∧
    (s.setFrame h f).store.mem = s.store.mem ∧ (s.setFrame h f).store.freeList = s.store.freeList ∧
    (s.setFrame h f).table = s.table ∧ (s.setFrame h f).sequence = s.sequence ∧
    (s.setFrame h f).sessions = s.sessions ∧ (s.setFrame h f).intake = s.intake ∧
    (s.setFrame h f).posts = s.posts ∧ (s.setFrame h f).scheduler = s.scheduler ∧
    (s.setFrame h f).mac = s.mac ∧ (s.setFrame h f).partition = s.partition ∧
    (s.setFrame h f).attention = s.attention ∧ (s.setFrame h f).linkCounters = s.linkCounters ∧
    (s.setFrame h f).stationCounters = s.stationCounters ∧ (s.setFrame h f).ports = s.ports ∧
    (s.setFrame h f).pending = s.pending :=
  ⟨rfl, rfl, rfl, rfl, rfl, rfl, rfl, rfl, rfl, rfl, rfl, rfl, rfl, rfl, rfl, rfl, rfl⟩

@[simp] theorem State.modifyFrame_keeps (s : State) (h : Handle) (f : Frame → Frame) :
    (s.modifyFrame h f).clock = s.clock ∧ (s.modifyFrame h f).pins = s.pins ∧
    (s.modifyFrame h f).store.mem = s.store.mem ∧
    (s.modifyFrame h f).store.freeList = s.store.freeList ∧ (s.modifyFrame h f).table = s.table ∧
    (s.modifyFrame h f).sequence = s.sequence ∧ (s.modifyFrame h f).sessions = s.sessions ∧
    (s.modifyFrame h f).intake = s.intake ∧ (s.modifyFrame h f).posts = s.posts ∧
    (s.modifyFrame h f).scheduler = s.scheduler ∧ (s.modifyFrame h f).mac = s.mac ∧
    (s.modifyFrame h f).partition = s.partition ∧ (s.modifyFrame h f).attention = s.attention ∧
    (s.modifyFrame h f).linkCounters = s.linkCounters ∧
    (s.modifyFrame h f).stationCounters = s.stationCounters ∧ (s.modifyFrame h f).ports = s.ports ∧
    (s.modifyFrame h f).pending = s.pending :=
  ⟨rfl, rfl, rfl, rfl, rfl, rfl, rfl, rfl, rfl, rfl, rfl, rfl, rfl, rfl, rfl, rfl, rfl⟩

@[simp] theorem State.mapFrames_keeps (s : State) (f : Nat → Frame → Frame) :
    (s.mapFrames f).clock = s.clock ∧ (s.mapFrames f).pins = s.pins ∧
    (s.mapFrames f).store.mem = s.store.mem ∧ (s.mapFrames f).store.freeList = s.store.freeList ∧
    (s.mapFrames f).table = s.table ∧ (s.mapFrames f).sequence = s.sequence ∧
    (s.mapFrames f).sessions = s.sessions ∧ (s.mapFrames f).intake = s.intake ∧
    (s.mapFrames f).posts = s.posts ∧ (s.mapFrames f).scheduler = s.scheduler ∧
    (s.mapFrames f).mac = s.mac ∧ (s.mapFrames f).partition = s.partition ∧
    (s.mapFrames f).attention = s.attention ∧ (s.mapFrames f).linkCounters = s.linkCounters ∧
    (s.mapFrames f).stationCounters = s.stationCounters ∧ (s.mapFrames f).ports = s.ports ∧
    (s.mapFrames f).pending = s.pending :=
  ⟨rfl, rfl, rfl, rfl, rfl, rfl, rfl, rfl, rfl, rfl, rfl, rfl, rfl, rfl, rfl, rfl, rfl⟩

@[simp] theorem State.storeBytes_keeps (s : State) (h : Handle) (k : Nat) (b : List Byte) :
    (s.storeBytes h k b).clock = s.clock ∧ (s.storeBytes h k b).pins = s.pins ∧
    (s.storeBytes h k b).store.freeList = s.store.freeList ∧
    (s.storeBytes h k b).store.frames = s.store.frames ∧ (s.storeBytes h k b).table = s.table ∧
    (s.storeBytes h k b).sequence = s.sequence ∧ (s.storeBytes h k b).sessions = s.sessions ∧
    (s.storeBytes h k b).intake = s.intake ∧ (s.storeBytes h k b).posts = s.posts ∧
    (s.storeBytes h k b).scheduler = s.scheduler ∧ (s.storeBytes h k b).mac = s.mac ∧
    (s.storeBytes h k b).partition = s.partition ∧ (s.storeBytes h k b).attention = s.attention ∧
    (s.storeBytes h k b).linkCounters = s.linkCounters ∧
    (s.storeBytes h k b).stationCounters = s.stationCounters ∧
    (s.storeBytes h k b).ports = s.ports ∧ (s.storeBytes h k b).pending = s.pending :=
  ⟨rfl, rfl, rfl, rfl, rfl, rfl, rfl, rfl, rfl, rfl, rfl, rfl, rfl, rfl, rfl, rfl, rfl⟩

@[simp] theorem State.takeGranules_keeps (s : State) (n : Nat) :
    (s.takeGranules n).clock = s.clock ∧ (s.takeGranules n).pins = s.pins ∧
    (s.takeGranules n).store.frames = s.store.frames ∧ (s.takeGranules n).table = s.table ∧
    (s.takeGranules n).sequence = s.sequence ∧ (s.takeGranules n).sessions = s.sessions ∧
    (s.takeGranules n).intake = s.intake ∧ (s.takeGranules n).posts = s.posts ∧
    (s.takeGranules n).scheduler = s.scheduler ∧ (s.takeGranules n).mac = s.mac ∧
    (s.takeGranules n).partition = s.partition ∧ (s.takeGranules n).attention = s.attention ∧
    (s.takeGranules n).linkCounters = s.linkCounters ∧
    (s.takeGranules n).stationCounters = s.stationCounters ∧ (s.takeGranules n).ports = s.ports ∧
    (s.takeGranules n).pending = s.pending :=
  ⟨rfl, rfl, rfl, rfl, rfl, rfl, rfl, rfl, rfl, rfl, rfl, rfl, rfl, rfl, rfl, rfl⟩

@[simp] theorem State.setSession_keeps (s : State) (p : Station) (v : Session) :
    (s.setSession p v).clock = s.clock ∧ (s.setSession p v).pins = s.pins ∧
    (s.setSession p v).store = s.store ∧ (s.setSession p v).table = s.table ∧
    (s.setSession p v).sequence = s.sequence ∧ (s.setSession p v).intake = s.intake ∧
    (s.setSession p v).posts = s.posts ∧ (s.setSession p v).scheduler = s.scheduler ∧
    (s.setSession p v).mac = s.mac ∧ (s.setSession p v).partition = s.partition ∧
    (s.setSession p v).attention = s.attention ∧ (s.setSession p v).linkCounters = s.linkCounters ∧
    (s.setSession p v).stationCounters = s.stationCounters ∧ (s.setSession p v).ports = s.ports ∧
    (s.setSession p v).pending = s.pending :=
  ⟨rfl, rfl, rfl, rfl, rfl, rfl, rfl, rfl, rfl, rfl, rfl, rfl, rfl, rfl, rfl⟩

@[simp] theorem State.setIntake_keeps (s : State) (p : Station) (q : List IntakeEntry) :
    (s.setIntake p q).clock = s.clock ∧ (s.setIntake p q).pins = s.pins ∧
    (s.setIntake p q).store = s.store ∧ (s.setIntake p q).table = s.table ∧
    (s.setIntake p q).sequence = s.sequence ∧ (s.setIntake p q).sessions = s.sessions ∧
    (s.setIntake p q).posts = s.posts ∧ (s.setIntake p q).scheduler = s.scheduler ∧
    (s.setIntake p q).mac = s.mac ∧ (s.setIntake p q).partition = s.partition ∧
    (s.setIntake p q).attention = s.attention ∧ (s.setIntake p q).linkCounters = s.linkCounters ∧
    (s.setIntake p q).stationCounters = s.stationCounters ∧ (s.setIntake p q).ports = s.ports ∧
    (s.setIntake p q).pending = s.pending :=
  ⟨rfl, rfl, rfl, rfl, rfl, rfl, rfl, rfl, rfl, rfl, rfl, rfl, rfl, rfl, rfl⟩

@[simp] theorem State.setPosts_keeps (s : State) (p : Station) (v : PostPath) :
    (s.setPosts p v).clock = s.clock ∧ (s.setPosts p v).pins = s.pins ∧
    (s.setPosts p v).store = s.store ∧ (s.setPosts p v).table = s.table ∧
    (s.setPosts p v).sequence = s.sequence ∧ (s.setPosts p v).sessions = s.sessions ∧
    (s.setPosts p v).intake = s.intake ∧ (s.setPosts p v).scheduler = s.scheduler ∧
    (s.setPosts p v).mac = s.mac ∧ (s.setPosts p v).partition = s.partition ∧
    (s.setPosts p v).attention = s.attention ∧ (s.setPosts p v).linkCounters = s.linkCounters ∧
    (s.setPosts p v).stationCounters = s.stationCounters ∧ (s.setPosts p v).ports = s.ports ∧
    (s.setPosts p v).pending = s.pending :=
  ⟨rfl, rfl, rfl, rfl, rfl, rfl, rfl, rfl, rfl, rfl, rfl, rfl, rfl, rfl, rfl⟩

@[simp] theorem State.setPort_keeps (s : State) (p : Station) (v : Port) :
    (s.setPort p v).clock = s.clock ∧ (s.setPort p v).pins = s.pins ∧
    (s.setPort p v).store = s.store ∧ (s.setPort p v).table = s.table ∧
    (s.setPort p v).sequence = s.sequence ∧ (s.setPort p v).sessions = s.sessions ∧
    (s.setPort p v).intake = s.intake ∧ (s.setPort p v).posts = s.posts ∧
    (s.setPort p v).scheduler = s.scheduler ∧ (s.setPort p v).mac = s.mac ∧
    (s.setPort p v).partition = s.partition ∧ (s.setPort p v).attention = s.attention ∧
    (s.setPort p v).linkCounters = s.linkCounters ∧
    (s.setPort p v).stationCounters = s.stationCounters ∧ (s.setPort p v).pending = s.pending :=
  ⟨rfl, rfl, rfl, rfl, rfl, rfl, rfl, rfl, rfl, rfl, rfl, rfl, rfl, rfl, rfl⟩

@[simp] theorem State.setDraft_keeps (s : State) (p : Station) (d : Option Contents) :
    (s.setDraft p d).clock = s.clock ∧ (s.setDraft p d).pins = s.pins ∧
    (s.setDraft p d).store = s.store ∧ (s.setDraft p d).table.entries = s.table.entries ∧
    (s.setDraft p d).table.generation = s.table.generation ∧
    (s.setDraft p d).sequence = s.sequence ∧ (s.setDraft p d).sessions = s.sessions ∧
    (s.setDraft p d).intake = s.intake ∧ (s.setDraft p d).posts = s.posts ∧
    (s.setDraft p d).scheduler = s.scheduler ∧ (s.setDraft p d).mac = s.mac ∧
    (s.setDraft p d).partition = s.partition ∧ (s.setDraft p d).attention = s.attention ∧
    (s.setDraft p d).linkCounters = s.linkCounters ∧
    (s.setDraft p d).stationCounters = s.stationCounters ∧ (s.setDraft p d).ports = s.ports ∧
    (s.setDraft p d).pending = s.pending :=
  ⟨rfl, rfl, rfl, rfl, rfl, rfl, rfl, rfl, rfl, rfl, rfl, rfl, rfl, rfl, rfl, rfl, rfl⟩

@[simp] theorem State.setEntry_keeps (s : State) (i : EntryIndex) (e : Entry) :
    (s.setEntry i e).clock = s.clock ∧ (s.setEntry i e).pins = s.pins ∧
    (s.setEntry i e).store = s.store ∧ (s.setEntry i e).table.drafts = s.table.drafts ∧
    (s.setEntry i e).table.generation = s.table.generation ∧
    (s.setEntry i e).sequence = s.sequence ∧ (s.setEntry i e).sessions = s.sessions ∧
    (s.setEntry i e).intake = s.intake ∧ (s.setEntry i e).posts = s.posts ∧
    (s.setEntry i e).scheduler = s.scheduler ∧ (s.setEntry i e).mac = s.mac ∧
    (s.setEntry i e).partition = s.partition ∧ (s.setEntry i e).attention = s.attention ∧
    (s.setEntry i e).linkCounters = s.linkCounters ∧
    (s.setEntry i e).stationCounters = s.stationCounters ∧ (s.setEntry i e).ports = s.ports ∧
    (s.setEntry i e).pending = s.pending :=
  ⟨rfl, rfl, rfl, rfl, rfl, rfl, rfl, rfl, rfl, rfl, rfl, rfl, rfl, rfl, rfl, rfl, rfl⟩

@[simp] theorem State.raiseGeneration_keeps (s : State) :
    (s.raiseGeneration).clock = s.clock ∧ (s.raiseGeneration).pins = s.pins ∧
    (s.raiseGeneration).store = s.store ∧ (s.raiseGeneration).table.entries = s.table.entries ∧
    (s.raiseGeneration).table.drafts = s.table.drafts ∧ (s.raiseGeneration).sequence = s.sequence ∧
    (s.raiseGeneration).sessions = s.sessions ∧ (s.raiseGeneration).intake = s.intake ∧
    (s.raiseGeneration).posts = s.posts ∧ (s.raiseGeneration).scheduler = s.scheduler ∧
    (s.raiseGeneration).mac = s.mac ∧ (s.raiseGeneration).partition = s.partition ∧
    (s.raiseGeneration).attention = s.attention ∧
    (s.raiseGeneration).linkCounters = s.linkCounters ∧
    (s.raiseGeneration).stationCounters = s.stationCounters ∧ (s.raiseGeneration).ports = s.ports ∧
    (s.raiseGeneration).pending = s.pending :=
  ⟨rfl, rfl, rfl, rfl, rfl, rfl, rfl, rfl, rfl, rfl, rfl, rfl, rfl, rfl, rfl, rfl, rfl⟩

@[simp] theorem State.removeEntry_keeps (s : State) (p : Station) (h : Handle) :
    (s.removeEntry p h).clock = s.clock ∧ (s.removeEntry p h).pins = s.pins ∧
    (s.removeEntry p h).store.mem = s.store.mem ∧
    (s.removeEntry p h).store.freeList = s.store.freeList ∧ (s.removeEntry p h).table = s.table ∧
    (s.removeEntry p h).sequence = s.sequence ∧ (s.removeEntry p h).sessions = s.sessions ∧
    (s.removeEntry p h).posts = s.posts ∧ (s.removeEntry p h).scheduler = s.scheduler ∧
    (s.removeEntry p h).mac = s.mac ∧ (s.removeEntry p h).partition = s.partition ∧
    (s.removeEntry p h).attention = s.attention ∧
    (s.removeEntry p h).linkCounters = s.linkCounters ∧
    (s.removeEntry p h).stationCounters = s.stationCounters ∧ (s.removeEntry p h).ports = s.ports ∧
    (s.removeEntry p h).pending = s.pending :=
  ⟨rfl, rfl, rfl, rfl, rfl, rfl, rfl, rfl, rfl, rfl, rfl, rfl, rfl, rfl, rfl, rfl⟩

@[simp] theorem State.reach_keeps (s : State) (t : Nat) :
    (s.reach t).pins = s.pins ∧ (s.reach t).store = s.store ∧ (s.reach t).table = s.table ∧
    (s.reach t).sequence = s.sequence ∧ (s.reach t).sessions = s.sessions ∧
    (s.reach t).intake = s.intake ∧ (s.reach t).posts = s.posts ∧
    (s.reach t).scheduler = s.scheduler ∧ (s.reach t).mac = s.mac ∧
    (s.reach t).partition = s.partition ∧ (s.reach t).attention = s.attention ∧
    (s.reach t).linkCounters = s.linkCounters ∧ (s.reach t).stationCounters = s.stationCounters ∧
    (s.reach t).ports = s.ports ∧ (s.reach t).pending = s.pending :=
  ⟨rfl, rfl, rfl, rfl, rfl, rfl, rfl, rfl, rfl, rfl, rfl, rfl, rfl, rfl, rfl⟩

@[simp] theorem State.setAttention_keeps (s : State) (p : Station) (a : Attention) :
    (s.setAttention p a).clock = s.clock ∧ (s.setAttention p a).pins = s.pins ∧
    (s.setAttention p a).store = s.store ∧ (s.setAttention p a).table = s.table ∧
    (s.setAttention p a).sequence = s.sequence ∧ (s.setAttention p a).sessions = s.sessions ∧
    (s.setAttention p a).intake = s.intake ∧ (s.setAttention p a).posts = s.posts ∧
    (s.setAttention p a).scheduler = s.scheduler ∧ (s.setAttention p a).mac = s.mac ∧
    (s.setAttention p a).partition = s.partition ∧
    (s.setAttention p a).linkCounters = s.linkCounters ∧
    (s.setAttention p a).stationCounters = s.stationCounters ∧
    (s.setAttention p a).ports = s.ports ∧ (s.setAttention p a).pending = s.pending :=
  ⟨rfl, rfl, rfl, rfl, rfl, rfl, rfl, rfl, rfl, rfl, rfl, rfl, rfl, rfl, rfl⟩

@[simp] theorem State.startFlow_keeps (s : State) (v : Speed) (q : Half) :
    (s.startFlow v q).clock = s.clock ∧ (s.startFlow v q).pins = s.pins ∧
    (s.startFlow v q).store = s.store ∧ (s.startFlow v q).table = s.table ∧
    (s.startFlow v q).sequence = s.sequence ∧ (s.startFlow v q).sessions = s.sessions ∧
    (s.startFlow v q).intake = s.intake ∧ (s.startFlow v q).posts = s.posts ∧
    (s.startFlow v q).scheduler = s.scheduler ∧ (s.startFlow v q).mac.link = s.mac.link ∧
    (s.startFlow v q).mac.comparePending = s.mac.comparePending ∧
    (s.startFlow v q).mac.receiver = s.mac.receiver ∧ (s.startFlow v q).mac.rxCrc = s.mac.rxCrc ∧
    (s.startFlow v q).mac.pauseUntil = s.mac.pauseUntil ∧
    (s.startFlow v q).partition = s.partition ∧ (s.startFlow v q).attention = s.attention ∧
    (s.startFlow v q).linkCounters = s.linkCounters ∧
    (s.startFlow v q).stationCounters = s.stationCounters ∧ (s.startFlow v q).ports = s.ports ∧
    (s.startFlow v q).pending = s.pending :=
  ⟨rfl, rfl, rfl, rfl, rfl, rfl, rfl, rfl, rfl, rfl, rfl, rfl, rfl, rfl, rfl, rfl, rfl, rfl, rfl, rfl⟩

@[simp] theorem State.raiseHits_keeps (s : State) (m : List EntryIndex) :
    (s.raiseHits m).clock = s.clock ∧ (s.raiseHits m).pins = s.pins ∧
    (s.raiseHits m).store = s.store ∧ (s.raiseHits m).table.drafts = s.table.drafts ∧
    (s.raiseHits m).table.generation = s.table.generation ∧ (s.raiseHits m).sequence = s.sequence ∧
    (s.raiseHits m).sessions = s.sessions ∧ (s.raiseHits m).intake = s.intake ∧
    (s.raiseHits m).posts = s.posts ∧ (s.raiseHits m).scheduler = s.scheduler ∧
    (s.raiseHits m).mac = s.mac ∧ (s.raiseHits m).partition = s.partition ∧
    (s.raiseHits m).attention = s.attention ∧ (s.raiseHits m).linkCounters = s.linkCounters ∧
    (s.raiseHits m).stationCounters = s.stationCounters ∧ (s.raiseHits m).ports = s.ports ∧
    (s.raiseHits m).pending = s.pending :=
  ⟨rfl, rfl, rfl, rfl, rfl, rfl, rfl, rfl, rfl, rfl, rfl, rfl, rfl, rfl, rfl, rfl, rfl⟩

@[simp] theorem State.dropIntakeHolds_keeps (s : State) (p : Station) (g : List IntakeEntry) :
    (s.dropIntakeHolds p g).clock = s.clock ∧ (s.dropIntakeHolds p g).pins = s.pins ∧
    (s.dropIntakeHolds p g).store.mem = s.store.mem ∧
    (s.dropIntakeHolds p g).store.freeList = s.store.freeList ∧
    (s.dropIntakeHolds p g).table = s.table ∧ (s.dropIntakeHolds p g).sequence = s.sequence ∧
    (s.dropIntakeHolds p g).sessions = s.sessions ∧ (s.dropIntakeHolds p g).intake = s.intake ∧
    (s.dropIntakeHolds p g).posts = s.posts ∧ (s.dropIntakeHolds p g).scheduler = s.scheduler ∧
    (s.dropIntakeHolds p g).mac = s.mac ∧ (s.dropIntakeHolds p g).partition = s.partition ∧
    (s.dropIntakeHolds p g).attention = s.attention ∧
    (s.dropIntakeHolds p g).linkCounters = s.linkCounters ∧
    (s.dropIntakeHolds p g).stationCounters = s.stationCounters ∧
    (s.dropIntakeHolds p g).ports = s.ports ∧ (s.dropIntakeHolds p g).pending = s.pending :=
  ⟨rfl, rfl, rfl, rfl, rfl, rfl, rfl, rfl, rfl, rfl, rfl, rfl, rfl, rfl, rfl, rfl, rfl⟩

@[simp] theorem State.dropStationHolds_keeps (s : State) (p : Station) :
    (s.dropStationHolds p).clock = s.clock ∧ (s.dropStationHolds p).pins = s.pins ∧
    (s.dropStationHolds p).store.mem = s.store.mem ∧
    (s.dropStationHolds p).store.freeList = s.store.freeList ∧
    (s.dropStationHolds p).table = s.table ∧ (s.dropStationHolds p).sequence = s.sequence ∧
    (s.dropStationHolds p).sessions = s.sessions ∧ (s.dropStationHolds p).scheduler = s.scheduler ∧
    (s.dropStationHolds p).mac = s.mac ∧ (s.dropStationHolds p).partition = s.partition ∧
    (s.dropStationHolds p).attention = s.attention ∧
    (s.dropStationHolds p).linkCounters = s.linkCounters ∧
    (s.dropStationHolds p).stationCounters = s.stationCounters ∧
    (s.dropStationHolds p).ports = s.ports ∧ (s.dropStationHolds p).pending = s.pending :=
  ⟨rfl, rfl, rfl, rfl, rfl, rfl, rfl, rfl, rfl, rfl, rfl, rfl, rfl, rfl, rfl⟩

@[simp] theorem State.goOffline_keeps (s : State) (p : Station) :
    (s.goOffline p).clock = s.clock ∧ (s.goOffline p).pins = s.pins ∧
    (s.goOffline p).store = s.store ∧ (s.goOffline p).table = s.table ∧
    (s.goOffline p).sequence = s.sequence ∧ (s.goOffline p).intake = s.intake ∧
    (s.goOffline p).posts = s.posts ∧ (s.goOffline p).scheduler = s.scheduler ∧
    (s.goOffline p).mac = s.mac ∧ (s.goOffline p).partition = s.partition ∧
    (s.goOffline p).attention = s.attention ∧ (s.goOffline p).linkCounters = s.linkCounters ∧
    (s.goOffline p).stationCounters = s.stationCounters ∧ (s.goOffline p).ports = s.ports ∧
    (s.goOffline p).pending = s.pending :=
  ⟨rfl, rfl, rfl, rfl, rfl, rfl, rfl, rfl, rfl, rfl, rfl, rfl, rfl, rfl, rfl⟩

@[simp] theorem State.clearScheduler_keeps (s : State) (p : Station) :
    (s.clearScheduler p).clock = s.clock ∧ (s.clearScheduler p).pins = s.pins ∧
    (s.clearScheduler p).store = s.store ∧ (s.clearScheduler p).table = s.table ∧
    (s.clearScheduler p).sequence = s.sequence ∧ (s.clearScheduler p).sessions = s.sessions ∧
    (s.clearScheduler p).intake = s.intake ∧ (s.clearScheduler p).posts = s.posts ∧
    (s.clearScheduler p).mac = s.mac ∧ (s.clearScheduler p).partition = s.partition ∧
    (s.clearScheduler p).attention = s.attention ∧
    (s.clearScheduler p).linkCounters = s.linkCounters ∧
    (s.clearScheduler p).stationCounters = s.stationCounters ∧
    (s.clearScheduler p).ports = s.ports ∧ (s.clearScheduler p).pending = s.pending :=
  ⟨rfl, rfl, rfl, rfl, rfl, rfl, rfl, rfl, rfl, rfl, rfl, rfl, rfl, rfl, rfl⟩

@[simp] theorem State.clearAttention_keeps (s : State) (p : Station) :
    (s.clearAttention p).clock = s.clock ∧ (s.clearAttention p).pins = s.pins ∧
    (s.clearAttention p).store = s.store ∧ (s.clearAttention p).table = s.table ∧
    (s.clearAttention p).sequence = s.sequence ∧ (s.clearAttention p).sessions = s.sessions ∧
    (s.clearAttention p).intake = s.intake ∧ (s.clearAttention p).posts = s.posts ∧
    (s.clearAttention p).scheduler = s.scheduler ∧ (s.clearAttention p).mac = s.mac ∧
    (s.clearAttention p).partition = s.partition ∧
    (s.clearAttention p).linkCounters = s.linkCounters ∧
    (s.clearAttention p).stationCounters = s.stationCounters ∧
    (s.clearAttention p).ports = s.ports ∧ (s.clearAttention p).pending = s.pending :=
  ⟨rfl, rfl, rfl, rfl, rfl, rfl, rfl, rfl, rfl, rfl, rfl, rfl, rfl, rfl, rfl⟩

@[simp] theorem State.setPresent_keeps (s : State) (p : Station) (v : Bool) :
    (s.setPresent p v).clock = s.clock ∧ (s.setPresent p v).store = s.store ∧
    (s.setPresent p v).table = s.table ∧ (s.setPresent p v).sequence = s.sequence ∧
    (s.setPresent p v).sessions = s.sessions ∧ (s.setPresent p v).intake = s.intake ∧
    (s.setPresent p v).posts = s.posts ∧ (s.setPresent p v).scheduler = s.scheduler ∧
    (s.setPresent p v).mac = s.mac ∧ (s.setPresent p v).partition = s.partition ∧
    (s.setPresent p v).attention = s.attention ∧ (s.setPresent p v).linkCounters = s.linkCounters ∧
    (s.setPresent p v).stationCounters = s.stationCounters ∧ (s.setPresent p v).ports = s.ports ∧
    (s.setPresent p v).pending = s.pending :=
  ⟨rfl, rfl, rfl, rfl, rfl, rfl, rfl, rfl, rfl, rfl, rfl, rfl, rfl, rfl, rfl⟩

@[simp] theorem State.setReceiver_keeps (s : State) (v : Receiver) :
    (s.setReceiver v).clock = s.clock ∧ (s.setReceiver v).pins = s.pins ∧
    (s.setReceiver v).store = s.store ∧ (s.setReceiver v).table = s.table ∧
    (s.setReceiver v).sequence = s.sequence ∧ (s.setReceiver v).sessions = s.sessions ∧
    (s.setReceiver v).intake = s.intake ∧ (s.setReceiver v).posts = s.posts ∧
    (s.setReceiver v).scheduler = s.scheduler ∧ (s.setReceiver v).mac.link = s.mac.link ∧
    (s.setReceiver v).mac.comparePending = s.mac.comparePending ∧
    (s.setReceiver v).mac.rxCrc = s.mac.rxCrc ∧ (s.setReceiver v).mac.tx = s.mac.tx ∧
    (s.setReceiver v).mac.pauseUntil = s.mac.pauseUntil ∧ (s.setReceiver v).mac.gen = s.mac.gen ∧
    (s.setReceiver v).partition = s.partition ∧ (s.setReceiver v).attention = s.attention ∧
    (s.setReceiver v).linkCounters = s.linkCounters ∧
    (s.setReceiver v).stationCounters = s.stationCounters ∧ (s.setReceiver v).ports = s.ports ∧
    (s.setReceiver v).pending = s.pending :=
  ⟨rfl, rfl, rfl, rfl, rfl, rfl, rfl, rfl, rfl, rfl, rfl, rfl, rfl, rfl, rfl, rfl, rfl, rfl, rfl, rfl, rfl⟩

@[simp] theorem State.dropFillHold_keeps (s : State) (h : Handle) :
    (s.dropFillHold h).clock = s.clock ∧ (s.dropFillHold h).pins = s.pins ∧
    (s.dropFillHold h).store.mem = s.store.mem ∧
    (s.dropFillHold h).store.freeList = s.store.freeList ∧ (s.dropFillHold h).table = s.table ∧
    (s.dropFillHold h).sequence = s.sequence ∧ (s.dropFillHold h).sessions = s.sessions ∧
    (s.dropFillHold h).intake = s.intake ∧ (s.dropFillHold h).posts = s.posts ∧
    (s.dropFillHold h).scheduler = s.scheduler ∧ (s.dropFillHold h).mac = s.mac ∧
    (s.dropFillHold h).partition = s.partition ∧ (s.dropFillHold h).attention = s.attention ∧
    (s.dropFillHold h).linkCounters = s.linkCounters ∧
    (s.dropFillHold h).stationCounters = s.stationCounters ∧ (s.dropFillHold h).ports = s.ports ∧
    (s.dropFillHold h).pending = s.pending :=
  ⟨rfl, rfl, rfl, rfl, rfl, rfl, rfl, rfl, rfl, rfl, rfl, rfl, rfl, rfl, rfl, rfl, rfl⟩

@[simp] theorem State.addReadHold_keeps (s : State) (p : Station) (h : Handle) :
    (s.addReadHold p h).clock = s.clock ∧ (s.addReadHold p h).pins = s.pins ∧
    (s.addReadHold p h).store.mem = s.store.mem ∧
    (s.addReadHold p h).store.freeList = s.store.freeList ∧ (s.addReadHold p h).table = s.table ∧
    (s.addReadHold p h).sequence = s.sequence ∧ (s.addReadHold p h).sessions = s.sessions ∧
    (s.addReadHold p h).intake = s.intake ∧ (s.addReadHold p h).posts = s.posts ∧
    (s.addReadHold p h).scheduler = s.scheduler ∧ (s.addReadHold p h).mac = s.mac ∧
    (s.addReadHold p h).partition = s.partition ∧ (s.addReadHold p h).attention = s.attention ∧
    (s.addReadHold p h).linkCounters = s.linkCounters ∧
    (s.addReadHold p h).stationCounters = s.stationCounters ∧ (s.addReadHold p h).ports = s.ports ∧
    (s.addReadHold p h).pending = s.pending :=
  ⟨rfl, rfl, rfl, rfl, rfl, rfl, rfl, rfl, rfl, rfl, rfl, rfl, rfl, rfl, rfl, rfl, rfl⟩

@[simp] theorem State.dropPostHold_keeps (s : State) (p : Station) (h : Handle) :
    (s.dropPostHold p h).clock = s.clock ∧ (s.dropPostHold p h).pins = s.pins ∧
    (s.dropPostHold p h).store.mem = s.store.mem ∧
    (s.dropPostHold p h).store.freeList = s.store.freeList ∧ (s.dropPostHold p h).table = s.table ∧
    (s.dropPostHold p h).sequence = s.sequence ∧ (s.dropPostHold p h).sessions = s.sessions ∧
    (s.dropPostHold p h).intake = s.intake ∧ (s.dropPostHold p h).posts = s.posts ∧
    (s.dropPostHold p h).scheduler = s.scheduler ∧ (s.dropPostHold p h).mac = s.mac ∧
    (s.dropPostHold p h).partition = s.partition ∧ (s.dropPostHold p h).attention = s.attention ∧
    (s.dropPostHold p h).linkCounters = s.linkCounters ∧
    (s.dropPostHold p h).stationCounters = s.stationCounters ∧
    (s.dropPostHold p h).ports = s.ports ∧ (s.dropPostHold p h).pending = s.pending :=
  ⟨rfl, rfl, rfl, rfl, rfl, rfl, rfl, rfl, rfl, rfl, rfl, rfl, rfl, rfl, rfl, rfl, rfl⟩

@[simp] theorem State.dropBuildHold_keeps (s : State) (p : Station) (h : Handle) :
    (s.dropBuildHold p h).clock = s.clock ∧ (s.dropBuildHold p h).pins = s.pins ∧
    (s.dropBuildHold p h).store.mem = s.store.mem ∧
    (s.dropBuildHold p h).store.freeList = s.store.freeList ∧
    (s.dropBuildHold p h).table = s.table ∧ (s.dropBuildHold p h).sequence = s.sequence ∧
    (s.dropBuildHold p h).sessions = s.sessions ∧ (s.dropBuildHold p h).intake = s.intake ∧
    (s.dropBuildHold p h).posts = s.posts ∧ (s.dropBuildHold p h).scheduler = s.scheduler ∧
    (s.dropBuildHold p h).mac = s.mac ∧ (s.dropBuildHold p h).partition = s.partition ∧
    (s.dropBuildHold p h).attention = s.attention ∧
    (s.dropBuildHold p h).linkCounters = s.linkCounters ∧
    (s.dropBuildHold p h).stationCounters = s.stationCounters ∧
    (s.dropBuildHold p h).ports = s.ports ∧ (s.dropBuildHold p h).pending = s.pending :=
  ⟨rfl, rfl, rfl, rfl, rfl, rfl, rfl, rfl, rfl, rfl, rfl, rfl, rfl, rfl, rfl, rfl, rfl⟩

@[simp] theorem State.takeDown_keeps (s : State) :
    (s.takeDown).clock = s.clock ∧ (s.takeDown).pins = s.pins ∧ (s.takeDown).store = s.store ∧
    (s.takeDown).table = s.table ∧ (s.takeDown).sequence = s.sequence ∧
    (s.takeDown).sessions = s.sessions ∧ (s.takeDown).intake = s.intake ∧
    (s.takeDown).posts = s.posts ∧ (s.takeDown).scheduler = s.scheduler ∧
    (s.takeDown).mac.comparePending = s.mac.comparePending ∧
    (s.takeDown).mac.receiver = s.mac.receiver ∧ (s.takeDown).mac.rxCrc = s.mac.rxCrc ∧
    (s.takeDown).mac.tx = s.mac.tx ∧ (s.takeDown).partition = s.partition ∧
    (s.takeDown).attention = s.attention ∧ (s.takeDown).linkCounters = s.linkCounters ∧
    (s.takeDown).stationCounters = s.stationCounters ∧ (s.takeDown).ports = s.ports ∧
    (s.takeDown).pending = s.pending :=
  ⟨rfl, rfl, rfl, rfl, rfl, rfl, rfl, rfl, rfl, rfl, rfl, rfl, rfl, rfl, rfl, rfl, rfl, rfl, rfl⟩

@[simp] theorem State.checkArrival_keeps (s : State) (b : Byte) :
    (s.checkArrival b).clock = s.clock ∧ (s.checkArrival b).pins = s.pins ∧
    (s.checkArrival b).store = s.store ∧ (s.checkArrival b).table = s.table ∧
    (s.checkArrival b).sequence = s.sequence ∧ (s.checkArrival b).sessions = s.sessions ∧
    (s.checkArrival b).intake = s.intake ∧ (s.checkArrival b).posts = s.posts ∧
    (s.checkArrival b).scheduler = s.scheduler ∧ (s.checkArrival b).mac.link = s.mac.link ∧
    (s.checkArrival b).mac.comparePending = s.mac.comparePending ∧
    (s.checkArrival b).mac.receiver = s.mac.receiver ∧ (s.checkArrival b).mac.tx = s.mac.tx ∧
    (s.checkArrival b).mac.pauseUntil = s.mac.pauseUntil ∧ (s.checkArrival b).mac.gen = s.mac.gen ∧
    (s.checkArrival b).partition = s.partition ∧ (s.checkArrival b).attention = s.attention ∧
    (s.checkArrival b).linkCounters = s.linkCounters ∧
    (s.checkArrival b).stationCounters = s.stationCounters ∧ (s.checkArrival b).ports = s.ports ∧
    (s.checkArrival b).pending = s.pending :=
  ⟨rfl, rfl, rfl, rfl, rfl, rfl, rfl, rfl, rfl, rfl, rfl, rfl, rfl, rfl, rfl, rfl, rfl, rfl, rfl, rfl, rfl⟩

@[simp] theorem State.advanceCounter_keeps (s : State) :
    (s.advanceCounter).clock = s.clock ∧ (s.advanceCounter).pins = s.pins ∧
    (s.advanceCounter).store = s.store ∧ (s.advanceCounter).table = s.table ∧
    (s.advanceCounter).sequence = s.sequence ∧ (s.advanceCounter).sessions = s.sessions ∧
    (s.advanceCounter).intake = s.intake ∧ (s.advanceCounter).posts = s.posts ∧
    (s.advanceCounter).scheduler = s.scheduler ∧ (s.advanceCounter).mac = s.mac ∧
    (s.advanceCounter).partition.installed = s.partition.installed ∧
    (s.advanceCounter).partition.recordNumber = s.partition.recordNumber ∧
    (s.advanceCounter).partition.proposal = s.partition.proposal ∧
    (s.advanceCounter).partition.lastOutcome = s.partition.lastOutcome ∧
    (s.advanceCounter).attention = s.attention ∧ (s.advanceCounter).linkCounters = s.linkCounters ∧
    (s.advanceCounter).stationCounters = s.stationCounters ∧ (s.advanceCounter).ports = s.ports ∧
    (s.advanceCounter).pending = s.pending :=
  ⟨rfl, rfl, rfl, rfl, rfl, rfl, rfl, rfl, rfl, rfl, rfl, rfl, rfl, rfl, rfl, rfl, rfl, rfl, rfl⟩

@[simp] theorem State.settlePost_keeps (s : State) (p : Station) (h : Handle) :
    (s.settlePost p h).clock = s.clock ∧ (s.settlePost p h).pins = s.pins ∧
    (s.settlePost p h).store.mem = s.store.mem ∧
    (s.settlePost p h).store.freeList = s.store.freeList ∧ (s.settlePost p h).table = s.table ∧
    (s.settlePost p h).sequence = s.sequence ∧ (s.settlePost p h).sessions = s.sessions ∧
    (s.settlePost p h).intake = s.intake ∧ (s.settlePost p h).scheduler = s.scheduler ∧
    (s.settlePost p h).mac = s.mac ∧ (s.settlePost p h).partition = s.partition ∧
    (s.settlePost p h).attention = s.attention ∧ (s.settlePost p h).linkCounters = s.linkCounters ∧
    (s.settlePost p h).stationCounters = s.stationCounters ∧ (s.settlePost p h).ports = s.ports ∧
    (s.settlePost p h).pending = s.pending :=
  ⟨rfl, rfl, rfl, rfl, rfl, rfl, rfl, rfl, rfl, rfl, rfl, rfl, rfl, rfl, rfl, rfl⟩

@[simp] theorem State.endTransmission_keeps (s : State) (p : Station) (h : Handle) :
    (s.endTransmission p h).clock = s.clock ∧ (s.endTransmission p h).pins = s.pins ∧
    (s.endTransmission p h).store.mem = s.store.mem ∧
    (s.endTransmission p h).store.freeList = s.store.freeList ∧
    (s.endTransmission p h).table = s.table ∧ (s.endTransmission p h).sequence = s.sequence ∧
    (s.endTransmission p h).sessions = s.sessions ∧ (s.endTransmission p h).intake = s.intake ∧
    (s.endTransmission p h).posts = s.posts ∧ (s.endTransmission p h).scheduler = s.scheduler ∧
    (s.endTransmission p h).mac.link = s.mac.link ∧
    (s.endTransmission p h).mac.comparePending = s.mac.comparePending ∧
    (s.endTransmission p h).mac.receiver = s.mac.receiver ∧
    (s.endTransmission p h).mac.rxCrc = s.mac.rxCrc ∧
    (s.endTransmission p h).mac.pauseUntil = s.mac.pauseUntil ∧
    (s.endTransmission p h).mac.gen = s.mac.gen ∧ (s.endTransmission p h).partition = s.partition ∧
    (s.endTransmission p h).attention = s.attention ∧
    (s.endTransmission p h).linkCounters = s.linkCounters ∧
    (s.endTransmission p h).stationCounters = s.stationCounters ∧
    (s.endTransmission p h).ports = s.ports ∧ (s.endTransmission p h).pending = s.pending :=
  ⟨rfl, rfl, rfl, rfl, rfl, rfl, rfl, rfl, rfl, rfl, rfl, rfl, rfl, rfl, rfl, rfl, rfl, rfl, rfl, rfl, rfl, rfl⟩

@[simp] theorem State.openBuild_keeps (s : State) (p : Station) (h : Handle) (n : Nat) :
    (s.openBuild p h n).clock = s.clock ∧ (s.openBuild p h n).pins = s.pins ∧
    (s.openBuild p h n).table = s.table ∧ (s.openBuild p h n).sequence = s.sequence ∧
    (s.openBuild p h n).sessions = s.sessions ∧ (s.openBuild p h n).intake = s.intake ∧
    (s.openBuild p h n).posts = s.posts ∧ (s.openBuild p h n).scheduler = s.scheduler ∧
    (s.openBuild p h n).mac = s.mac ∧ (s.openBuild p h n).partition = s.partition ∧
    (s.openBuild p h n).attention = s.attention ∧
    (s.openBuild p h n).linkCounters = s.linkCounters ∧
    (s.openBuild p h n).stationCounters = s.stationCounters ∧ (s.openBuild p h n).ports = s.ports ∧
    (s.openBuild p h n).pending = s.pending :=
  ⟨rfl, rfl, rfl, rfl, rfl, rfl, rfl, rfl, rfl, rfl, rfl, rfl, rfl, rfl, rfl⟩

@[simp] theorem State.appendByte_keeps (s : State) (h : Handle) (b : Byte) :
    (s.appendByte h b).clock = s.clock ∧ (s.appendByte h b).pins = s.pins ∧
    (s.appendByte h b).store.freeList = s.store.freeList ∧ (s.appendByte h b).table = s.table ∧
    (s.appendByte h b).sequence = s.sequence ∧ (s.appendByte h b).sessions = s.sessions ∧
    (s.appendByte h b).intake = s.intake ∧ (s.appendByte h b).posts = s.posts ∧
    (s.appendByte h b).scheduler = s.scheduler ∧ (s.appendByte h b).mac = s.mac ∧
    (s.appendByte h b).partition = s.partition ∧ (s.appendByte h b).attention = s.attention ∧
    (s.appendByte h b).linkCounters = s.linkCounters ∧
    (s.appendByte h b).stationCounters = s.stationCounters ∧ (s.appendByte h b).ports = s.ports ∧
    (s.appendByte h b).pending = s.pending :=
  ⟨rfl, rfl, rfl, rfl, rfl, rfl, rfl, rfl, rfl, rfl, rfl, rfl, rfl, rfl, rfl, rfl⟩

@[simp] theorem State.tick_keeps (s : State) :
    (s.tick).clock.choices = s.clock.choices ∧ (s.tick).pins = s.pins ∧ (s.tick).store = s.store ∧
    (s.tick).table = s.table ∧ (s.tick).sequence = s.sequence ∧ (s.tick).sessions = s.sessions ∧
    (s.tick).intake = s.intake ∧ (s.tick).posts = s.posts ∧ (s.tick).scheduler = s.scheduler ∧
    (s.tick).mac = s.mac ∧ (s.tick).partition = s.partition ∧ (s.tick).attention = s.attention ∧
    (s.tick).linkCounters = s.linkCounters ∧ (s.tick).stationCounters = s.stationCounters ∧
    (s.tick).ports = s.ports ∧ (s.tick).pending = s.pending :=
  ⟨rfl, rfl, rfl, rfl, rfl, rfl, rfl, rfl, rfl, rfl, rfl, rfl, rfl, rfl, rfl, rfl⟩

@[simp] theorem State.withPending_keeps (s : State) (q : List Instr) :
    (s.withPending q).clock = s.clock ∧ (s.withPending q).pins = s.pins ∧
    (s.withPending q).store = s.store ∧ (s.withPending q).table = s.table ∧
    (s.withPending q).sequence = s.sequence ∧ (s.withPending q).sessions = s.sessions ∧
    (s.withPending q).intake = s.intake ∧ (s.withPending q).posts = s.posts ∧
    (s.withPending q).scheduler = s.scheduler ∧ (s.withPending q).mac = s.mac ∧
    (s.withPending q).partition = s.partition ∧ (s.withPending q).attention = s.attention ∧
    (s.withPending q).linkCounters = s.linkCounters ∧
    (s.withPending q).stationCounters = s.stationCounters ∧ (s.withPending q).ports = s.ports :=
  ⟨rfl, rfl, rfl, rfl, rfl, rfl, rfl, rfl, rfl, rfl, rfl, rfl, rfl, rfl, rfl⟩

@[simp] theorem State.releaseLost_keeps (b s : State) :
    (State.releaseLost b s).clock = s.clock ∧ (State.releaseLost b s).pins = s.pins ∧
    (State.releaseLost b s).table = s.table ∧ (State.releaseLost b s).sequence = s.sequence ∧
    (State.releaseLost b s).sessions = s.sessions ∧ (State.releaseLost b s).intake = s.intake ∧
    (State.releaseLost b s).posts = s.posts ∧ (State.releaseLost b s).scheduler = s.scheduler ∧
    (State.releaseLost b s).mac = s.mac ∧ (State.releaseLost b s).partition = s.partition ∧
    (State.releaseLost b s).attention = s.attention ∧
    (State.releaseLost b s).linkCounters = s.linkCounters ∧
    (State.releaseLost b s).stationCounters = s.stationCounters ∧
    (State.releaseLost b s).ports = s.ports ∧ (State.releaseLost b s).pending = s.pending ∧
    (State.releaseLost b s).store.mem = s.store.mem :=
  ⟨rfl, rfl, rfl, rfl, rfl, rfl, rfl, rfl, rfl, rfl, rfl, rfl, rfl, rfl, rfl, rfl⟩

/-! ### What each plain update writes -/

@[simp] theorem State.setSession_sessions (s : State) (p : Station) (v : Session) :
    (s.setSession p v).sessions = s.sessions.set p v := rfl

@[simp] theorem State.setIntake_intake (s : State) (p : Station) (q : List IntakeEntry) :
    (s.setIntake p q).intake = s.intake.set p q := rfl

@[simp] theorem State.setPosts_posts (s : State) (p : Station) (v : PostPath) :
    (s.setPosts p v).posts = s.posts.set p v := rfl

@[simp] theorem State.setPort_ports (s : State) (p : Station) (v : Port) :
    (s.setPort p v).ports = s.ports.set p v := rfl

@[simp] theorem State.setAttention_attention (s : State) (p : Station) (a : Attention) :
    (s.setAttention p a).attention = s.attention.set p a := rfl

@[simp] theorem State.setDraft_drafts (s : State) (p : Station) (d : Option Contents) :
    (s.setDraft p d).table.drafts = s.table.drafts.set p d := rfl

@[simp] theorem State.setEntry_entries (s : State) (i : EntryIndex) (e : Entry) :
    (s.setEntry i e).table.entries = s.table.entries.set i e := rfl

@[simp] theorem State.raiseGeneration_generation (s : State) :
    s.raiseGeneration.table.generation = s.table.generation + 1 := rfl

@[simp] theorem State.setFrame_frames (s : State) (h : Handle) (f : Frame) :
    (s.setFrame h f).store.frames = s.store.frames.set h f := rfl

@[simp] theorem State.modifyFrame_frames (s : State) (h : Handle) (f : Frame → Frame) :
    (s.modifyFrame h f).store.frames = s.store.frames.set h (f (s.store.frames.get h)) := rfl

@[simp] theorem State.takeGranules_freeList (s : State) (n : Nat) :
    (s.takeGranules n).store.freeList = s.store.freeList.drop n := rfl

@[simp] theorem State.withPending_pending (s : State) (q : List Instr) :
    (s.withPending q).pending = q := rfl

@[simp] theorem State.tick_now (s : State) : s.tick.clock.now = s.clock.now + 1 := rfl

end Sys2Proof.Machine
end

