-- ==== Sys2Proof/Laws/Ops.lean ====
section
/-! SUPPORT. What each shared operation leaves as it was (`_keeps`), and what the close of an event and the
taking of work can do. -/

namespace Sys2Proof.Machine

/-- A value that every step of a fold keeps is kept by the fold. -/
theorem foldl_keeps {σ α β : Type} (f : σ → β → σ) (g : σ → α) (h : ∀ s b, g (f s b) = g s)
    (l : List β) (s : σ) : g (l.foldl f s) = g s := by
  induction l generalizing s with
  | nil => rfl
  | cons b l ih => exact (ih _).trans (h s b)

@[simp] theorem State.raiseFlag_keeps (s : State) (f : Flag) (p : Station) :
    (s.raiseFlag f p).clock = s.clock ∧ (s.raiseFlag f p).pins = s.pins ∧
    (s.raiseFlag f p).store = s.store ∧ (s.raiseFlag f p).table = s.table ∧
    (s.raiseFlag f p).sequence = s.sequence ∧ (s.raiseFlag f p).sessions = s.sessions ∧
    (s.raiseFlag f p).intake = s.intake ∧ (s.raiseFlag f p).posts = s.posts ∧
    (s.raiseFlag f p).scheduler = s.scheduler ∧ (s.raiseFlag f p).mac = s.mac ∧
    (s.raiseFlag f p).partition = s.partition ∧ (s.raiseFlag f p).linkCounters = s.linkCounters ∧
    (s.raiseFlag f p).stationCounters = s.stationCounters ∧ (s.raiseFlag f p).ports = s.ports ∧
    (s.raiseFlag f p).pending = s.pending :=
  by unfold State.raiseFlag; split <;> simp

/-- What every raising of a flag keeps is kept when the flag is raised at a set of stations. -/
theorem State.raiseFlagAt_kept {α : Type} (s : State) (f : Flag) (v : StationSet) (g : State → α)
    (h : ∀ (x : State) q, g (x.raiseFlag f q) = g x) : g (s.raiseFlagAt f v) = g s :=
  foldl_keeps _ g (fun x q => by split; exacts [h x q, rfl]) _ _

@[simp] theorem State.raiseFlagAt_keeps (s : State) (f : Flag) (v : StationSet) :
    (s.raiseFlagAt f v).clock = s.clock ∧ (s.raiseFlagAt f v).pins = s.pins ∧
    (s.raiseFlagAt f v).store = s.store ∧ (s.raiseFlagAt f v).table = s.table ∧
    (s.raiseFlagAt f v).sequence = s.sequence ∧ (s.raiseFlagAt f v).sessions = s.sessions ∧
    (s.raiseFlagAt f v).intake = s.intake ∧ (s.raiseFlagAt f v).posts = s.posts ∧
    (s.raiseFlagAt f v).scheduler = s.scheduler ∧ (s.raiseFlagAt f v).mac = s.mac ∧
    (s.raiseFlagAt f v).partition = s.partition ∧
    (s.raiseFlagAt f v).linkCounters = s.linkCounters ∧
    (s.raiseFlagAt f v).stationCounters = s.stationCounters ∧ (s.raiseFlagAt f v).ports = s.ports ∧
    (s.raiseFlagAt f v).pending = s.pending :=
  by
    have k := fun {α : Type} (g : State → α) h => s.raiseFlagAt_kept f v g h
    exact ⟨k (·.clock) (by simp), k (·.pins) (by simp), k (·.store) (by simp),
      k (·.table) (by simp), k (·.sequence) (by simp), k (·.sessions) (by simp),
      k (·.intake) (by simp), k (·.posts) (by simp), k (·.scheduler) (by simp),
      k (·.mac) (by simp), k (·.partition) (by simp), k (·.linkCounters) (by simp),
      k (·.stationCounters) (by simp), k (·.ports) (by simp), k (·.pending) (by simp)⟩

/-- What every raising of a flag keeps is kept when the flag is raised everywhere. -/
theorem State.raiseFlagEverywhere_kept {α : Type} (s : State) (f : Flag) (g : State → α)
    (h : ∀ (x : State) q, g (x.raiseFlag f q) = g x) : g (s.raiseFlagEverywhere f) = g s :=
  foldl_keeps _ g (fun x q => h x q) _ _

@[simp] theorem State.raiseFlagEverywhere_keeps (s : State) (f : Flag) :
    (s.raiseFlagEverywhere f).clock = s.clock ∧ (s.raiseFlagEverywhere f).pins = s.pins ∧
    (s.raiseFlagEverywhere f).store = s.store ∧ (s.raiseFlagEverywhere f).table = s.table ∧
    (s.raiseFlagEverywhere f).sequence = s.sequence ∧
    (s.raiseFlagEverywhere f).sessions = s.sessions ∧ (s.raiseFlagEverywhere f).intake = s.intake ∧
    (s.raiseFlagEverywhere f).posts = s.posts ∧ (s.raiseFlagEverywhere f).scheduler = s.scheduler ∧
    (s.raiseFlagEverywhere f).mac = s.mac ∧ (s.raiseFlagEverywhere f).partition = s.partition ∧
    (s.raiseFlagEverywhere f).linkCounters = s.linkCounters ∧
    (s.raiseFlagEverywhere f).stationCounters = s.stationCounters ∧
    (s.raiseFlagEverywhere f).ports = s.ports ∧ (s.raiseFlagEverywhere f).pending = s.pending :=
  by
    have k := fun {α : Type} (g : State → α) h => s.raiseFlagEverywhere_kept f g h
    exact ⟨k (·.clock) (by simp), k (·.pins) (by simp), k (·.store) (by simp),
      k (·.table) (by simp), k (·.sequence) (by simp), k (·.sessions) (by simp),
      k (·.intake) (by simp), k (·.posts) (by simp), k (·.scheduler) (by simp),
      k (·.mac) (by simp), k (·.partition) (by simp), k (·.linkCounters) (by simp),
      k (·.stationCounters) (by simp), k (·.ports) (by simp), k (·.pending) (by simp)⟩

@[simp] theorem State.countLink_keeps (s : State) (c : LinkCounter) (n : Nat) :
    (s.countLink c n).clock = s.clock ∧ (s.countLink c n).pins = s.pins ∧
    (s.countLink c n).store = s.store ∧ (s.countLink c n).table = s.table ∧
    (s.countLink c n).sequence = s.sequence ∧ (s.countLink c n).sessions = s.sessions ∧
    (s.countLink c n).intake = s.intake ∧ (s.countLink c n).posts = s.posts ∧
    (s.countLink c n).scheduler = s.scheduler ∧ (s.countLink c n).mac = s.mac ∧
    (s.countLink c n).partition = s.partition ∧
    (s.countLink c n).stationCounters = s.stationCounters ∧ (s.countLink c n).ports = s.ports ∧
    (s.countLink c n).pending = s.pending :=
  by unfold State.countLink; dsimp only; split <;> simp

@[simp] theorem State.countStation_keeps (s : State) (p : Station) (c : StationCounter) (n : Nat) :
    (s.countStation p c n).clock = s.clock ∧ (s.countStation p c n).pins = s.pins ∧
    (s.countStation p c n).store = s.store ∧ (s.countStation p c n).table = s.table ∧
    (s.countStation p c n).sequence = s.sequence ∧ (s.countStation p c n).sessions = s.sessions ∧
    (s.countStation p c n).intake = s.intake ∧ (s.countStation p c n).posts = s.posts ∧
    (s.countStation p c n).scheduler = s.scheduler ∧ (s.countStation p c n).mac = s.mac ∧
    (s.countStation p c n).partition = s.partition ∧
    (s.countStation p c n).linkCounters = s.linkCounters ∧ (s.countStation p c n).ports = s.ports ∧
    (s.countStation p c n).pending = s.pending :=
  by unfold State.countStation; dsimp only; split <;> simp

@[simp] theorem State.startStation_keeps (s : State) (v : Speed) (p : Station) :
    (s.startStation v p).clock = s.clock ∧ (s.startStation v p).pins = s.pins ∧
    (s.startStation v p).store.mem = s.store.mem ∧
    (s.startStation v p).store.freeList = s.store.freeList ∧ (s.startStation v p).table = s.table ∧
    (s.startStation v p).sequence = s.sequence ∧ (s.startStation v p).sessions = s.sessions ∧
    (s.startStation v p).intake = s.intake ∧ (s.startStation v p).scheduler = s.scheduler ∧
    (s.startStation v p).mac.link = s.mac.link ∧
    (s.startStation v p).mac.comparePending = s.mac.comparePending ∧
    (s.startStation v p).mac.receiver = s.mac.receiver ∧
    (s.startStation v p).mac.rxCrc = s.mac.rxCrc ∧
    (s.startStation v p).mac.pauseUntil = s.mac.pauseUntil ∧
    (s.startStation v p).partition = s.partition ∧ (s.startStation v p).attention = s.attention ∧
    (s.startStation v p).linkCounters = s.linkCounters ∧
    (s.startStation v p).stationCounters = s.stationCounters ∧
    (s.startStation v p).ports = s.ports ∧ (s.startStation v p).pending = s.pending :=
  by unfold State.startStation; split <;> simp

@[simp] theorem State.askScheduler_keeps (s : State) (v : Speed) :
    (s.askScheduler v).clock = s.clock ∧ (s.askScheduler v).pins = s.pins ∧
    (s.askScheduler v).store.mem = s.store.mem ∧
    (s.askScheduler v).store.freeList = s.store.freeList ∧ (s.askScheduler v).table = s.table ∧
    (s.askScheduler v).sequence = s.sequence ∧ (s.askScheduler v).sessions = s.sessions ∧
    (s.askScheduler v).intake = s.intake ∧ (s.askScheduler v).mac.link = s.mac.link ∧
    (s.askScheduler v).mac.comparePending = s.mac.comparePending ∧
    (s.askScheduler v).mac.receiver = s.mac.receiver ∧ (s.askScheduler v).mac.rxCrc = s.mac.rxCrc ∧
    (s.askScheduler v).mac.pauseUntil = s.mac.pauseUntil ∧
    (s.askScheduler v).partition = s.partition ∧ (s.askScheduler v).attention = s.attention ∧
    (s.askScheduler v).linkCounters = s.linkCounters ∧
    (s.askScheduler v).stationCounters = s.stationCounters ∧ (s.askScheduler v).ports = s.ports ∧
    (s.askScheduler v).pending = s.pending :=
  by unfold State.askScheduler; dsimp only; split <;> simp

@[simp] theorem State.takeWork_keeps (s : State) :
    (s.takeWork).clock = s.clock ∧ (s.takeWork).pins = s.pins ∧
    (s.takeWork).store.mem = s.store.mem ∧ (s.takeWork).store.freeList = s.store.freeList ∧
    (s.takeWork).table = s.table ∧ (s.takeWork).sequence = s.sequence ∧
    (s.takeWork).sessions = s.sessions ∧ (s.takeWork).intake = s.intake ∧
    (s.takeWork).mac.link = s.mac.link ∧ (s.takeWork).mac.comparePending = s.mac.comparePending ∧
    (s.takeWork).mac.receiver = s.mac.receiver ∧ (s.takeWork).mac.rxCrc = s.mac.rxCrc ∧
    (s.takeWork).mac.pauseUntil = s.mac.pauseUntil ∧ (s.takeWork).partition = s.partition ∧
    (s.takeWork).attention = s.attention ∧ (s.takeWork).linkCounters = s.linkCounters ∧
    (s.takeWork).stationCounters = s.stationCounters ∧ (s.takeWork).ports = s.ports ∧
    (s.takeWork).pending = s.pending :=
  by unfold State.takeWork; split <;> [split <;> simp; simp]

@[simp] theorem State.requestFlow_keeps (s : State) (q : Half) :
    (s.requestFlow q).clock = s.clock ∧ (s.requestFlow q).pins = s.pins ∧
    (s.requestFlow q).store = s.store ∧ (s.requestFlow q).table = s.table ∧
    (s.requestFlow q).sequence = s.sequence ∧ (s.requestFlow q).sessions = s.sessions ∧
    (s.requestFlow q).intake = s.intake ∧ (s.requestFlow q).posts = s.posts ∧
    (s.requestFlow q).scheduler = s.scheduler ∧ (s.requestFlow q).mac.link = s.mac.link ∧
    (s.requestFlow q).mac.comparePending = s.mac.comparePending ∧
    (s.requestFlow q).mac.receiver = s.mac.receiver ∧ (s.requestFlow q).mac.rxCrc = s.mac.rxCrc ∧
    (s.requestFlow q).mac.pauseUntil = s.mac.pauseUntil ∧
    (s.requestFlow q).partition = s.partition ∧ (s.requestFlow q).attention = s.attention ∧
    (s.requestFlow q).linkCounters = s.linkCounters ∧
    (s.requestFlow q).stationCounters = s.stationCounters ∧ (s.requestFlow q).ports = s.ports ∧
    (s.requestFlow q).pending = s.pending :=
  by unfold State.requestFlow State.takeWork; split <;> simp

@[simp] theorem State.respond_keeps (s : State) (n : Nat) :
    (s.respond n).clock = s.clock ∧ (s.respond n).pins = s.pins ∧ (s.respond n).store = s.store ∧
    (s.respond n).table = s.table ∧ (s.respond n).sequence = s.sequence ∧
    (s.respond n).sessions = s.sessions ∧ (s.respond n).intake = s.intake ∧
    (s.respond n).posts = s.posts ∧ (s.respond n).scheduler = s.scheduler ∧
    (s.respond n).mac.link = s.mac.link ∧ (s.respond n).mac.comparePending = s.mac.comparePending ∧
    (s.respond n).mac.receiver = s.mac.receiver ∧ (s.respond n).mac.rxCrc = s.mac.rxCrc ∧
    (s.respond n).mac.pauseUntil = s.mac.pauseUntil ∧ (s.respond n).partition = s.partition ∧
    (s.respond n).attention = s.attention ∧ (s.respond n).linkCounters = s.linkCounters ∧
    (s.respond n).stationCounters = s.stationCounters ∧ (s.respond n).ports = s.ports ∧
    (s.respond n).pending = s.pending :=
  by unfold State.respond; dsimp only; split <;> [split <;> simp; split <;> simp; simp]

@[simp] theorem State.closeEvent_keeps (b s : State) :
    (State.closeEvent b s).clock = s.clock ∧ (State.closeEvent b s).pins = s.pins ∧
    (State.closeEvent b s).store.mem = s.store.mem ∧ (State.closeEvent b s).table = s.table ∧
    (State.closeEvent b s).sequence = s.sequence ∧ (State.closeEvent b s).sessions = s.sessions ∧
    (State.closeEvent b s).intake = s.intake ∧ (State.closeEvent b s).posts = s.posts ∧
    (State.closeEvent b s).scheduler = s.scheduler ∧ (State.closeEvent b s).mac.link = s.mac.link ∧
    (State.closeEvent b s).mac.comparePending = s.mac.comparePending ∧
    (State.closeEvent b s).mac.receiver = s.mac.receiver ∧
    (State.closeEvent b s).mac.rxCrc = s.mac.rxCrc ∧
    (State.closeEvent b s).mac.pauseUntil = s.mac.pauseUntil ∧
    (State.closeEvent b s).partition = s.partition ∧
    (State.closeEvent b s).attention = s.attention ∧
    (State.closeEvent b s).linkCounters = s.linkCounters ∧
    (State.closeEvent b s).stationCounters = s.stationCounters ∧
    (State.closeEvent b s).ports = s.ports ∧ (State.closeEvent b s).pending = s.pending :=
  by unfold State.closeEvent; dsimp only; split <;> simp

@[simp] theorem State.countDrop_keeps (s : State) (p : Station) (c : StationCounter) :
    (s.countDrop p c).clock = s.clock ∧ (s.countDrop p c).pins = s.pins ∧
    (s.countDrop p c).store = s.store ∧ (s.countDrop p c).table = s.table ∧
    (s.countDrop p c).sequence = s.sequence ∧ (s.countDrop p c).sessions = s.sessions ∧
    (s.countDrop p c).intake = s.intake ∧ (s.countDrop p c).posts = s.posts ∧
    (s.countDrop p c).scheduler = s.scheduler ∧ (s.countDrop p c).mac = s.mac ∧
    (s.countDrop p c).partition = s.partition ∧ (s.countDrop p c).linkCounters = s.linkCounters ∧
    (s.countDrop p c).ports = s.ports ∧ (s.countDrop p c).pending = s.pending :=
  by simp [State.countDrop]

/-- What every counting of a drop keeps is kept by the counting of the asleep drops. -/
theorem State.countAsleep_kept {α : Type} (s : State) (v : StationSet) (g : State → α)
    (h : ∀ (x : State) q, g (x.countDrop q .asleepDrops) = g x) : g (s.countAsleep v) = g s :=
  foldl_keeps _ g (fun x q => by split; exacts [h x q, rfl]) _ _

@[simp] theorem State.countAsleep_keeps (s : State) (v : StationSet) :
    (s.countAsleep v).clock = s.clock ∧ (s.countAsleep v).pins = s.pins ∧
    (s.countAsleep v).store = s.store ∧ (s.countAsleep v).table = s.table ∧
    (s.countAsleep v).sequence = s.sequence ∧ (s.countAsleep v).sessions = s.sessions ∧
    (s.countAsleep v).intake = s.intake ∧ (s.countAsleep v).posts = s.posts ∧
    (s.countAsleep v).scheduler = s.scheduler ∧ (s.countAsleep v).mac = s.mac ∧
    (s.countAsleep v).partition = s.partition ∧ (s.countAsleep v).linkCounters = s.linkCounters ∧
    (s.countAsleep v).ports = s.ports ∧ (s.countAsleep v).pending = s.pending :=
  by
    have k := fun {α : Type} (g : State → α) h => s.countAsleep_kept v g h
    exact ⟨k (·.clock) (by simp), k (·.pins) (by simp), k (·.store) (by simp),
      k (·.table) (by simp), k (·.sequence) (by simp), k (·.sessions) (by simp),
      k (·.intake) (by simp), k (·.posts) (by simp), k (·.scheduler) (by simp),
      k (·.mac) (by simp), k (·.partition) (by simp), k (·.linkCounters) (by simp),
      k (·.ports) (by simp), k (·.pending) (by simp)⟩

@[simp] theorem State.classify_keeps (s : State) (h : Handle) (o : Origin) :
    (s.classify h o).clock = s.clock ∧ (s.classify h o).pins = s.pins ∧
    (s.classify h o).store.mem = s.store.mem ∧ (s.classify h o).store.freeList = s.store.freeList ∧
    (s.classify h o).table.drafts = s.table.drafts ∧
    (s.classify h o).table.generation = s.table.generation ∧
    (s.classify h o).sessions = s.sessions ∧ (s.classify h o).intake = s.intake ∧
    (s.classify h o).posts = s.posts ∧ (s.classify h o).scheduler = s.scheduler ∧
    (s.classify h o).mac = s.mac ∧ (s.classify h o).partition = s.partition ∧
    (s.classify h o).linkCounters = s.linkCounters ∧ (s.classify h o).ports = s.ports ∧
    (s.classify h o).pending = s.pending :=
  by simp [State.classify]

@[simp] theorem State.admitAt_keeps (s : State) (h : Handle) (w : Bool) (p : Station) :
    (s.admitAt h w p).clock = s.clock ∧ (s.admitAt h w p).pins = s.pins ∧
    (s.admitAt h w p).store.mem = s.store.mem ∧ (s.admitAt h w p).store.freeList = s.store.freeList ∧
    (s.admitAt h w p).table = s.table ∧ (s.admitAt h w p).sequence = s.sequence ∧
    (s.admitAt h w p).sessions = s.sessions ∧ (s.admitAt h w p).posts = s.posts ∧
    (s.admitAt h w p).scheduler = s.scheduler ∧ (s.admitAt h w p).mac = s.mac ∧
    (s.admitAt h w p).partition = s.partition ∧ (s.admitAt h w p).linkCounters = s.linkCounters ∧
    (s.admitAt h w p).ports = s.ports ∧ (s.admitAt h w p).pending = s.pending :=
  by unfold State.admitAt; dsimp only; split <;> simp

/-- An offer changes a station's queue, the frame's holds, and the station's counters and flags only. -/
@[simp] theorem State.offer_keeps (s : State) (h : Handle) (w : StationSet) (n : Nat) (t : Station) :
    ((State.offer h w (s, n) t).1).clock = s.clock ∧ ((State.offer h w (s, n) t).1).pins = s.pins ∧
    ((State.offer h w (s, n) t).1).store.mem = s.store.mem ∧
    ((State.offer h w (s, n) t).1).store.freeList = s.store.freeList ∧
    ((State.offer h w (s, n) t).1).table = s.table ∧
    ((State.offer h w (s, n) t).1).sequence = s.sequence ∧
    ((State.offer h w (s, n) t).1).sessions = s.sessions ∧
    ((State.offer h w (s, n) t).1).posts = s.posts ∧
    ((State.offer h w (s, n) t).1).scheduler = s.scheduler ∧
    ((State.offer h w (s, n) t).1).mac = s.mac ∧
    ((State.offer h w (s, n) t).1).partition = s.partition ∧
    ((State.offer h w (s, n) t).1).linkCounters = s.linkCounters ∧
    ((State.offer h w (s, n) t).1).ports = s.ports ∧
    ((State.offer h w (s, n) t).1).pending = s.pending :=
  by unfold State.offer; dsimp only; split <;> simp

/-- What every offer keeps is kept by the admission of a frame. -/
theorem State.admission_kept {α : Type} (s : State) (h : Handle) (g : State → α)
    (hg : ∀ (x : State) w n t, g (State.offer h w (x, n) t).1 = g x) : g (s.admission h).1 = g s := by
  unfold State.admission
  split
  · rfl
  · exact foldl_keeps _ (fun y : State × Nat => g y.1)
      (fun x q => by split; exacts [hg x.1 _ x.2 q, rfl]) _ _

@[simp] theorem State.admission_keeps (s : State) (h : Handle) :
    ((s.admission h).1).clock = s.clock ∧ ((s.admission h).1).pins = s.pins ∧
    ((s.admission h).1).store.mem = s.store.mem ∧
    ((s.admission h).1).store.freeList = s.store.freeList ∧ ((s.admission h).1).table = s.table ∧
    ((s.admission h).1).sequence = s.sequence ∧ ((s.admission h).1).sessions = s.sessions ∧
    ((s.admission h).1).posts = s.posts ∧ ((s.admission h).1).scheduler = s.scheduler ∧
    ((s.admission h).1).mac = s.mac ∧ ((s.admission h).1).partition = s.partition ∧
    ((s.admission h).1).linkCounters = s.linkCounters ∧ ((s.admission h).1).ports = s.ports ∧
    ((s.admission h).1).pending = s.pending :=
  by
    have k := fun {α : Type} (g : State → α) hg => s.admission_kept h g hg
    exact ⟨k (·.clock) (by simp), k (·.pins) (by simp), k (·.store.mem) (by simp),
      k (·.store.freeList) (by simp), k (·.table) (by simp), k (·.sequence) (by simp),
      k (·.sessions) (by simp), k (·.posts) (by simp), k (·.scheduler) (by simp),
      k (·.mac) (by simp), k (·.partition) (by simp), k (·.linkCounters) (by simp),
      k (·.ports) (by simp), k (·.pending) (by simp)⟩

@[simp] theorem State.expireQueue_keeps (s : State) (p : Station) :
    (s.expireQueue p).clock = s.clock ∧ (s.expireQueue p).pins = s.pins ∧
    (s.expireQueue p).store.mem = s.store.mem ∧
    (s.expireQueue p).store.freeList = s.store.freeList ∧ (s.expireQueue p).table = s.table ∧
    (s.expireQueue p).sequence = s.sequence ∧ (s.expireQueue p).sessions = s.sessions ∧
    (s.expireQueue p).posts = s.posts ∧ (s.expireQueue p).scheduler = s.scheduler ∧
    (s.expireQueue p).mac = s.mac ∧ (s.expireQueue p).partition = s.partition ∧
    (s.expireQueue p).linkCounters = s.linkCounters ∧ (s.expireQueue p).ports = s.ports ∧
    (s.expireQueue p).pending = s.pending :=
  by unfold State.expireQueue; split <;> simp

/-- What every expiry of a queue keeps is kept by the expiries of an installation. -/
theorem State.expireAtInstallation_kept {α : Type} (s : State) (v : Half) (g : State → α)
    (h : ∀ (x : State) q, g (x.expireQueue q) = g x) : g (s.expireAtInstallation v) = g s := by
  unfold State.expireAtInstallation
  split
  · rfl
  · exact foldl_keeps _ g (fun x q => h x q) _ _

@[simp] theorem State.expireAtInstallation_keeps (s : State) (v : Half) :
    (s.expireAtInstallation v).clock = s.clock ∧ (s.expireAtInstallation v).pins = s.pins ∧
    (s.expireAtInstallation v).store.mem = s.store.mem ∧
    (s.expireAtInstallation v).store.freeList = s.store.freeList ∧
    (s.expireAtInstallation v).table = s.table ∧ (s.expireAtInstallation v).sequence = s.sequence ∧
    (s.expireAtInstallation v).sessions = s.sessions ∧ (s.expireAtInstallation v).posts = s.posts ∧
    (s.expireAtInstallation v).scheduler = s.scheduler ∧ (s.expireAtInstallation v).mac = s.mac ∧
    (s.expireAtInstallation v).partition = s.partition ∧
    (s.expireAtInstallation v).linkCounters = s.linkCounters ∧
    (s.expireAtInstallation v).ports = s.ports ∧ (s.expireAtInstallation v).pending = s.pending :=
  by
    have k := fun {α : Type} (g : State → α) h => s.expireAtInstallation_kept v g h
    exact ⟨k (·.clock) (by simp), k (·.pins) (by simp), k (·.store.mem) (by simp),
      k (·.store.freeList) (by simp), k (·.table) (by simp), k (·.sequence) (by simp),
      k (·.sessions) (by simp), k (·.posts) (by simp), k (·.scheduler) (by simp),
      k (·.mac) (by simp), k (·.partition) (by simp), k (·.linkCounters) (by simp),
      k (·.ports) (by simp), k (·.pending) (by simp)⟩

@[simp] theorem State.install_keeps (s : State) (n : Half) (r : PartitionRecord) :
    (s.install n r).clock = s.clock ∧ (s.install n r).pins = s.pins ∧
    (s.install n r).store.mem = s.store.mem ∧ (s.install n r).store.freeList = s.store.freeList ∧
    (s.install n r).table = s.table ∧ (s.install n r).sequence = s.sequence ∧
    (s.install n r).sessions = s.sessions ∧ (s.install n r).posts = s.posts ∧
    (s.install n r).scheduler = s.scheduler ∧ (s.install n r).mac = s.mac ∧
    (s.install n r).linkCounters = s.linkCounters ∧ (s.install n r).ports = s.ports ∧
    (s.install n r).pending = s.pending :=
  by simp [State.install]

@[simp] theorem State.abandon_keeps (s : State) (o : Proposal) :
    (s.abandon o).clock = s.clock ∧ (s.abandon o).pins = s.pins ∧ (s.abandon o).store = s.store ∧
    (s.abandon o).table = s.table ∧ (s.abandon o).sequence = s.sequence ∧
    (s.abandon o).sessions = s.sessions ∧ (s.abandon o).intake = s.intake ∧
    (s.abandon o).posts = s.posts ∧ (s.abandon o).scheduler = s.scheduler ∧
    (s.abandon o).mac = s.mac ∧ (s.abandon o).linkCounters = s.linkCounters ∧
    (s.abandon o).stationCounters = s.stationCounters ∧ (s.abandon o).ports = s.ports ∧
    (s.abandon o).pending = s.pending :=
  by simp [State.abandon]

@[simp] theorem State.settleProposal_keeps (s : State) (o : Proposal) :
    (s.settleProposal o).clock = s.clock ∧ (s.settleProposal o).pins = s.pins ∧
    (s.settleProposal o).store.mem = s.store.mem ∧
    (s.settleProposal o).store.freeList = s.store.freeList ∧ (s.settleProposal o).table = s.table ∧
    (s.settleProposal o).sequence = s.sequence ∧ (s.settleProposal o).sessions = s.sessions ∧
    (s.settleProposal o).posts = s.posts ∧ (s.settleProposal o).scheduler = s.scheduler ∧
    (s.settleProposal o).mac = s.mac ∧ (s.settleProposal o).linkCounters = s.linkCounters ∧
    (s.settleProposal o).ports = s.ports ∧ (s.settleProposal o).pending = s.pending :=
  by unfold State.settleProposal; split <;> simp

@[simp] theorem State.departActive_keeps (s : State) (p : Station) :
    (s.departActive p).clock = s.clock ∧ (s.departActive p).pins = s.pins ∧
    (s.departActive p).store.mem = s.store.mem ∧
    (s.departActive p).store.freeList = s.store.freeList ∧ (s.departActive p).table = s.table ∧
    (s.departActive p).sequence = s.sequence ∧ (s.departActive p).sessions = s.sessions ∧
    (s.departActive p).posts = s.posts ∧ (s.departActive p).scheduler = s.scheduler ∧
    (s.departActive p).mac = s.mac ∧ (s.departActive p).linkCounters = s.linkCounters ∧
    (s.departActive p).ports = s.ports ∧ (s.departActive p).pending = s.pending :=
  by unfold State.departActive; split <;> [simp; (split <;> [simp; (split <;> simp)])]

@[simp] theorem State.retireOwned_keeps (s : State) (p : Station) :
    (s.retireOwned p).clock = s.clock ∧ (s.retireOwned p).pins = s.pins ∧
    (s.retireOwned p).store = s.store ∧ (s.retireOwned p).sequence = s.sequence ∧
    (s.retireOwned p).sessions = s.sessions ∧ (s.retireOwned p).intake = s.intake ∧
    (s.retireOwned p).posts = s.posts ∧ (s.retireOwned p).scheduler = s.scheduler ∧
    (s.retireOwned p).mac = s.mac ∧ (s.retireOwned p).partition = s.partition ∧
    (s.retireOwned p).linkCounters = s.linkCounters ∧
    (s.retireOwned p).stationCounters = s.stationCounters ∧ (s.retireOwned p).ports = s.ports ∧
    (s.retireOwned p).pending = s.pending :=
  by simp [State.retireOwned]

@[simp] theorem State.teardown_keeps (s : State) (p : Station) :
    (s.teardown p).clock = s.clock ∧ (s.teardown p).pins = s.pins ∧
    (s.teardown p).store.mem = s.store.mem ∧ (s.teardown p).store.freeList = s.store.freeList ∧
    (s.teardown p).sequence = s.sequence ∧ (s.teardown p).mac = s.mac ∧
    (s.teardown p).linkCounters = s.linkCounters ∧ (s.teardown p).ports = s.ports ∧
    (s.teardown p).pending = s.pending :=
  by simp [State.teardown]

@[simp] theorem State.endSession_keeps (s : State) (p : Station) :
    (s.endSession p).clock = s.clock ∧ (s.endSession p).pins = s.pins ∧
    (s.endSession p).store.mem = s.store.mem ∧ (s.endSession p).store.freeList = s.store.freeList ∧
    (s.endSession p).sequence = s.sequence ∧ (s.endSession p).mac = s.mac ∧
    (s.endSession p).linkCounters = s.linkCounters ∧ (s.endSession p).pending = s.pending :=
  by simp [State.endSession]

@[simp] theorem State.fallSelect_keeps (s : State) (p : Station) :
    (s.fallSelect p).clock = s.clock ∧ (s.fallSelect p).pins = s.pins ∧
    (s.fallSelect p).store = s.store ∧ (s.fallSelect p).table = s.table ∧
    (s.fallSelect p).sequence = s.sequence ∧ (s.fallSelect p).sessions = s.sessions ∧
    (s.fallSelect p).intake = s.intake ∧ (s.fallSelect p).posts = s.posts ∧
    (s.fallSelect p).scheduler = s.scheduler ∧ (s.fallSelect p).mac = s.mac ∧
    (s.fallSelect p).partition = s.partition ∧ (s.fallSelect p).attention = s.attention ∧
    (s.fallSelect p).linkCounters = s.linkCounters ∧
    (s.fallSelect p).stationCounters = s.stationCounters ∧ (s.fallSelect p).pending = s.pending :=
  by unfold State.fallSelect; split <;> simp

@[simp] theorem State.dropReadHold_keeps (s : State) (p : Station) :
    (s.dropReadHold p).clock = s.clock ∧ (s.dropReadHold p).pins = s.pins ∧
    (s.dropReadHold p).store.mem = s.store.mem ∧
    (s.dropReadHold p).store.freeList = s.store.freeList ∧ (s.dropReadHold p).table = s.table ∧
    (s.dropReadHold p).sequence = s.sequence ∧ (s.dropReadHold p).sessions = s.sessions ∧
    (s.dropReadHold p).intake = s.intake ∧ (s.dropReadHold p).posts = s.posts ∧
    (s.dropReadHold p).scheduler = s.scheduler ∧ (s.dropReadHold p).mac = s.mac ∧
    (s.dropReadHold p).partition = s.partition ∧ (s.dropReadHold p).attention = s.attention ∧
    (s.dropReadHold p).linkCounters = s.linkCounters ∧
    (s.dropReadHold p).stationCounters = s.stationCounters ∧ (s.dropReadHold p).ports = s.ports ∧
    (s.dropReadHold p).pending = s.pending :=
  by unfold State.dropReadHold; split <;> simp

@[simp] theorem State.takeUndefined_keeps (s : State) (p : Station) (b : Byte) :
    (s.takeUndefined p b).clock = s.clock ∧ (s.takeUndefined p b).pins = s.pins ∧
    (s.takeUndefined p b).store = s.store ∧ (s.takeUndefined p b).table = s.table ∧
    (s.takeUndefined p b).sequence = s.sequence ∧ (s.takeUndefined p b).sessions = s.sessions ∧
    (s.takeUndefined p b).intake = s.intake ∧ (s.takeUndefined p b).posts = s.posts ∧
    (s.takeUndefined p b).scheduler = s.scheduler ∧ (s.takeUndefined p b).mac = s.mac ∧
    (s.takeUndefined p b).partition = s.partition ∧ (s.takeUndefined p b).attention = s.attention ∧
    (s.takeUndefined p b).linkCounters = s.linkCounters ∧
    (s.takeUndefined p b).stationCounters = s.stationCounters ∧
    (s.takeUndefined p b).pending = s.pending :=
  by simp [State.takeUndefined]

@[simp] theorem State.complete_keeps (s : State) (p : Station) (c : Completion) :
    (s.complete p c).clock = s.clock ∧ (s.complete p c).pins = s.pins ∧
    (s.complete p c).store = s.store ∧ (s.complete p c).table = s.table ∧
    (s.complete p c).sequence = s.sequence ∧ (s.complete p c).sessions = s.sessions ∧
    (s.complete p c).intake = s.intake ∧ (s.complete p c).scheduler = s.scheduler ∧
    (s.complete p c).mac = s.mac ∧ (s.complete p c).partition = s.partition ∧
    (s.complete p c).linkCounters = s.linkCounters ∧
    (s.complete p c).stationCounters = s.stationCounters ∧ (s.complete p c).ports = s.ports ∧
    (s.complete p c).pending = s.pending :=
  by simp [State.complete]

@[simp] theorem State.deliverPost_keeps (s : State) (p : Station) (h : Handle) (v : PostFlags) :
    ((s.deliverPost p h v).1).clock = s.clock ∧ ((s.deliverPost p h v).1).pins = s.pins ∧
    ((s.deliverPost p h v).1).store.mem = s.store.mem ∧
    ((s.deliverPost p h v).1).store.freeList = s.store.freeList ∧
    ((s.deliverPost p h v).1).table.drafts = s.table.drafts ∧
    ((s.deliverPost p h v).1).table.generation = s.table.generation ∧
    ((s.deliverPost p h v).1).sessions = s.sessions ∧ ((s.deliverPost p h v).1).posts = s.posts ∧
    ((s.deliverPost p h v).1).scheduler = s.scheduler ∧ ((s.deliverPost p h v).1).mac = s.mac ∧
    ((s.deliverPost p h v).1).partition = s.partition ∧
    ((s.deliverPost p h v).1).linkCounters = s.linkCounters ∧
    ((s.deliverPost p h v).1).ports = s.ports ∧ ((s.deliverPost p h v).1).pending = s.pending :=
  by unfold State.deliverPost; split <;> simp

@[simp] theorem State.queuePost_keeps (s : State) (p : Station) (h : Handle) (n : Nat) :
    (s.queuePost p h n).clock = s.clock ∧ (s.queuePost p h n).pins = s.pins ∧
    (s.queuePost p h n).store.mem = s.store.mem ∧
    (s.queuePost p h n).store.freeList = s.store.freeList ∧ (s.queuePost p h n).table = s.table ∧
    (s.queuePost p h n).sequence = s.sequence ∧ (s.queuePost p h n).sessions = s.sessions ∧
    (s.queuePost p h n).intake = s.intake ∧ (s.queuePost p h n).mac.link = s.mac.link ∧
    (s.queuePost p h n).mac.comparePending = s.mac.comparePending ∧
    (s.queuePost p h n).mac.receiver = s.mac.receiver ∧
    (s.queuePost p h n).mac.rxCrc = s.mac.rxCrc ∧
    (s.queuePost p h n).mac.pauseUntil = s.mac.pauseUntil ∧
    (s.queuePost p h n).partition = s.partition ∧ (s.queuePost p h n).attention = s.attention ∧
    (s.queuePost p h n).linkCounters = s.linkCounters ∧
    (s.queuePost p h n).stationCounters = s.stationCounters ∧ (s.queuePost p h n).ports = s.ports ∧
    (s.queuePost p h n).pending = s.pending :=
  by simp [State.queuePost]

@[simp] theorem State.containPost_keeps (s : State) (p : Station) (h : Handle) (n : Nat) :
    (s.containPost p h n).clock = s.clock ∧ (s.containPost p h n).pins = s.pins ∧
    (s.containPost p h n).store = s.store ∧ (s.containPost p h n).table = s.table ∧
    (s.containPost p h n).sequence = s.sequence ∧ (s.containPost p h n).sessions = s.sessions ∧
    (s.containPost p h n).intake = s.intake ∧ (s.containPost p h n).scheduler = s.scheduler ∧
    (s.containPost p h n).mac = s.mac ∧ (s.containPost p h n).partition = s.partition ∧
    (s.containPost p h n).linkCounters = s.linkCounters ∧ (s.containPost p h n).ports = s.ports ∧
    (s.containPost p h n).pending = s.pending :=
  by simp [State.containPost]

@[simp] theorem State.countPost_keeps (s : State) (p : Station) (n : Nat) :
    (s.countPost p n).clock = s.clock ∧ (s.countPost p n).pins = s.pins ∧
    (s.countPost p n).store = s.store ∧ (s.countPost p n).table = s.table ∧
    (s.countPost p n).sequence = s.sequence ∧ (s.countPost p n).sessions = s.sessions ∧
    (s.countPost p n).intake = s.intake ∧ (s.countPost p n).posts = s.posts ∧
    (s.countPost p n).scheduler = s.scheduler ∧ (s.countPost p n).mac = s.mac ∧
    (s.countPost p n).partition = s.partition ∧ (s.countPost p n).linkCounters = s.linkCounters ∧
    (s.countPost p n).ports = s.ports ∧ (s.countPost p n).pending = s.pending :=
  by simp [State.countPost]

@[simp] theorem State.cancelPost_keeps (s : State) (p : Station) (e : PostEntry) :
    (s.cancelPost p e).clock = s.clock ∧ (s.cancelPost p e).pins = s.pins ∧
    (s.cancelPost p e).store.mem = s.store.mem ∧
    (s.cancelPost p e).store.freeList = s.store.freeList ∧ (s.cancelPost p e).table = s.table ∧
    (s.cancelPost p e).sequence = s.sequence ∧ (s.cancelPost p e).sessions = s.sessions ∧
    (s.cancelPost p e).intake = s.intake ∧ (s.cancelPost p e).scheduler = s.scheduler ∧
    (s.cancelPost p e).mac = s.mac ∧ (s.cancelPost p e).partition = s.partition ∧
    (s.cancelPost p e).linkCounters = s.linkCounters ∧ (s.cancelPost p e).ports = s.ports ∧
    (s.cancelPost p e).pending = s.pending :=
  by simp [State.cancelPost]

@[simp] theorem State.reportEnd_keeps (s : State) (p : Station) (h : Handle) (v : PostOutcome) :
    (s.reportEnd p h v).clock = s.clock ∧ (s.reportEnd p h v).pins = s.pins ∧
    (s.reportEnd p h v).store = s.store ∧ (s.reportEnd p h v).table = s.table ∧
    (s.reportEnd p h v).sequence = s.sequence ∧ (s.reportEnd p h v).sessions = s.sessions ∧
    (s.reportEnd p h v).intake = s.intake ∧ (s.reportEnd p h v).scheduler = s.scheduler ∧
    (s.reportEnd p h v).mac = s.mac ∧ (s.reportEnd p h v).partition = s.partition ∧
    (s.reportEnd p h v).linkCounters = s.linkCounters ∧
    (s.reportEnd p h v).stationCounters = s.stationCounters ∧ (s.reportEnd p h v).ports = s.ports ∧
    (s.reportEnd p h v).pending = s.pending :=
  by unfold State.reportEnd; split <;> [split <;> simp; simp]

@[simp] theorem State.countSent_keeps (s : State) (p : Station) (h : Handle) :
    (s.countSent p h).clock = s.clock ∧ (s.countSent p h).pins = s.pins ∧
    (s.countSent p h).store = s.store ∧ (s.countSent p h).table = s.table ∧
    (s.countSent p h).sequence = s.sequence ∧ (s.countSent p h).sessions = s.sessions ∧
    (s.countSent p h).intake = s.intake ∧ (s.countSent p h).posts = s.posts ∧
    (s.countSent p h).scheduler = s.scheduler ∧ (s.countSent p h).mac = s.mac ∧
    (s.countSent p h).partition = s.partition ∧ (s.countSent p h).linkCounters = s.linkCounters ∧
    (s.countSent p h).ports = s.ports ∧ (s.countSent p h).pending = s.pending :=
  by unfold State.countSent; split <;> simp

@[simp] theorem State.sendEnded_keeps (s : State) (p : Station) (h : Handle) :
    (s.sendEnded p h).clock = s.clock ∧ (s.sendEnded p h).pins = s.pins ∧
    (s.sendEnded p h).store.mem = s.store.mem ∧
    (s.sendEnded p h).store.freeList = s.store.freeList ∧ (s.sendEnded p h).table = s.table ∧
    (s.sendEnded p h).sequence = s.sequence ∧ (s.sendEnded p h).sessions = s.sessions ∧
    (s.sendEnded p h).intake = s.intake ∧ (s.sendEnded p h).scheduler = s.scheduler ∧
    (s.sendEnded p h).mac.link = s.mac.link ∧
    (s.sendEnded p h).mac.comparePending = s.mac.comparePending ∧
    (s.sendEnded p h).mac.receiver = s.mac.receiver ∧ (s.sendEnded p h).mac.rxCrc = s.mac.rxCrc ∧
    (s.sendEnded p h).mac.pauseUntil = s.mac.pauseUntil ∧ (s.sendEnded p h).mac.gen = s.mac.gen ∧
    (s.sendEnded p h).partition = s.partition ∧ (s.sendEnded p h).ports = s.ports ∧
    (s.sendEnded p h).pending = s.pending :=
  by simp [State.sendEnded]

@[simp] theorem State.discardFrame_keeps (s : State) (h : Handle) (c : LinkCounter) :
    (s.discardFrame h c).clock = s.clock ∧ (s.discardFrame h c).pins = s.pins ∧
    (s.discardFrame h c).store.mem = s.store.mem ∧
    (s.discardFrame h c).store.freeList = s.store.freeList ∧ (s.discardFrame h c).table = s.table ∧
    (s.discardFrame h c).sequence = s.sequence ∧ (s.discardFrame h c).sessions = s.sessions ∧
    (s.discardFrame h c).intake = s.intake ∧ (s.discardFrame h c).posts = s.posts ∧
    (s.discardFrame h c).scheduler = s.scheduler ∧ (s.discardFrame h c).mac.link = s.mac.link ∧
    (s.discardFrame h c).mac.comparePending = s.mac.comparePending ∧
    (s.discardFrame h c).mac.rxCrc = s.mac.rxCrc ∧ (s.discardFrame h c).mac.tx = s.mac.tx ∧
    (s.discardFrame h c).mac.pauseUntil = s.mac.pauseUntil ∧
    (s.discardFrame h c).mac.gen = s.mac.gen ∧ (s.discardFrame h c).partition = s.partition ∧
    (s.discardFrame h c).stationCounters = s.stationCounters ∧
    (s.discardFrame h c).ports = s.ports ∧ (s.discardFrame h c).pending = s.pending :=
  by simp [State.discardFrame]

@[simp] theorem State.cutReception_keeps (s : State) :
    (s.cutReception).clock = s.clock ∧ (s.cutReception).pins = s.pins ∧
    (s.cutReception).store.mem = s.store.mem ∧ (s.cutReception).store.freeList = s.store.freeList ∧
    (s.cutReception).table = s.table ∧ (s.cutReception).sequence = s.sequence ∧
    (s.cutReception).sessions = s.sessions ∧ (s.cutReception).intake = s.intake ∧
    (s.cutReception).posts = s.posts ∧ (s.cutReception).scheduler = s.scheduler ∧
    (s.cutReception).mac.link = s.mac.link ∧
    (s.cutReception).mac.comparePending = s.mac.comparePending ∧
    (s.cutReception).mac.rxCrc = s.mac.rxCrc ∧ (s.cutReception).mac.tx = s.mac.tx ∧
    (s.cutReception).mac.pauseUntil = s.mac.pauseUntil ∧ (s.cutReception).mac.gen = s.mac.gen ∧
    (s.cutReception).partition = s.partition ∧
    (s.cutReception).stationCounters = s.stationCounters ∧ (s.cutReception).ports = s.ports ∧
    (s.cutReception).pending = s.pending :=
  by unfold State.cutReception; split <;> simp

@[simp] theorem State.loseTransmission_keeps (s : State) :
    (s.loseTransmission).clock = s.clock ∧ (s.loseTransmission).pins = s.pins ∧
    (s.loseTransmission).store.mem = s.store.mem ∧
    (s.loseTransmission).store.freeList = s.store.freeList ∧ (s.loseTransmission).table = s.table ∧
    (s.loseTransmission).sequence = s.sequence ∧ (s.loseTransmission).sessions = s.sessions ∧
    (s.loseTransmission).intake = s.intake ∧ (s.loseTransmission).scheduler = s.scheduler ∧
    (s.loseTransmission).mac.link = s.mac.link ∧
    (s.loseTransmission).mac.comparePending = s.mac.comparePending ∧
    (s.loseTransmission).mac.receiver = s.mac.receiver ∧
    (s.loseTransmission).mac.rxCrc = s.mac.rxCrc ∧
    (s.loseTransmission).mac.pauseUntil = s.mac.pauseUntil ∧
    (s.loseTransmission).mac.gen = s.mac.gen ∧ (s.loseTransmission).partition = s.partition ∧
    (s.loseTransmission).stationCounters = s.stationCounters ∧
    (s.loseTransmission).ports = s.ports ∧ (s.loseTransmission).pending = s.pending :=
  by unfold State.loseTransmission; split <;> simp

@[simp] theorem State.moveDown_keeps (s : State) :
    (s.moveDown).clock = s.clock ∧ (s.moveDown).pins = s.pins ∧
    (s.moveDown).store.mem = s.store.mem ∧ (s.moveDown).store.freeList = s.store.freeList ∧
    (s.moveDown).table = s.table ∧ (s.moveDown).sequence = s.sequence ∧
    (s.moveDown).sessions = s.sessions ∧ (s.moveDown).intake = s.intake ∧
    (s.moveDown).scheduler = s.scheduler ∧ (s.moveDown).mac.comparePending = s.mac.comparePending ∧
    (s.moveDown).mac.rxCrc = s.mac.rxCrc ∧ (s.moveDown).partition = s.partition ∧
    (s.moveDown).stationCounters = s.stationCounters ∧ (s.moveDown).ports = s.ports ∧
    (s.moveDown).pending = s.pending :=
  by simp [State.moveDown]

@[simp] theorem State.moveUp_keeps (s : State) :
    (s.moveUp).clock = s.clock ∧ (s.moveUp).pins = s.pins ∧ (s.moveUp).store.mem = s.store.mem ∧
    (s.moveUp).store.freeList = s.store.freeList ∧ (s.moveUp).table = s.table ∧
    (s.moveUp).sequence = s.sequence ∧ (s.moveUp).sessions = s.sessions ∧
    (s.moveUp).intake = s.intake ∧ (s.moveUp).mac.comparePending = s.mac.comparePending ∧
    (s.moveUp).mac.receiver = s.mac.receiver ∧ (s.moveUp).mac.rxCrc = s.mac.rxCrc ∧
    (s.moveUp).mac.pauseUntil = s.mac.pauseUntil ∧ (s.moveUp).partition = s.partition ∧
    (s.moveUp).linkCounters = s.linkCounters ∧ (s.moveUp).stationCounters = s.stationCounters ∧
    (s.moveUp).ports = s.ports ∧ (s.moveUp).pending = s.pending :=
  by simp [State.moveUp]

@[simp] theorem State.loadPause_keeps (s : State) (q : Half) :
    (s.loadPause q).clock = s.clock ∧ (s.loadPause q).pins = s.pins ∧
    (s.loadPause q).store.mem = s.store.mem ∧ (s.loadPause q).store.freeList = s.store.freeList ∧
    (s.loadPause q).table = s.table ∧ (s.loadPause q).sequence = s.sequence ∧
    (s.loadPause q).sessions = s.sessions ∧ (s.loadPause q).intake = s.intake ∧
    (s.loadPause q).mac.link = s.mac.link ∧
    (s.loadPause q).mac.comparePending = s.mac.comparePending ∧
    (s.loadPause q).mac.receiver = s.mac.receiver ∧ (s.loadPause q).mac.rxCrc = s.mac.rxCrc ∧
    (s.loadPause q).partition = s.partition ∧ (s.loadPause q).attention = s.attention ∧
    (s.loadPause q).linkCounters = s.linkCounters ∧
    (s.loadPause q).stationCounters = s.stationCounters ∧ (s.loadPause q).ports = s.ports ∧
    (s.loadPause q).pending = s.pending :=
  by unfold State.loadPause; split <;> [simp; (split <;> [split <;> simp; simp])]

@[simp] theorem State.countGood_keeps (s : State) (n : Nat) :
    (s.countGood n).clock = s.clock ∧ (s.countGood n).pins = s.pins ∧
    (s.countGood n).store = s.store ∧ (s.countGood n).table = s.table ∧
    (s.countGood n).sequence = s.sequence ∧ (s.countGood n).sessions = s.sessions ∧
    (s.countGood n).intake = s.intake ∧ (s.countGood n).posts = s.posts ∧
    (s.countGood n).scheduler = s.scheduler ∧ (s.countGood n).mac = s.mac ∧
    (s.countGood n).partition = s.partition ∧ (s.countGood n).stationCounters = s.stationCounters ∧
    (s.countGood n).ports = s.ports ∧ (s.countGood n).pending = s.pending :=
  by simp [State.countGood]

@[simp] theorem State.countUndelivered_keeps (s : State) (n : Nat) :
    (s.countUndelivered n).clock = s.clock ∧ (s.countUndelivered n).pins = s.pins ∧
    (s.countUndelivered n).store = s.store ∧ (s.countUndelivered n).table = s.table ∧
    (s.countUndelivered n).sequence = s.sequence ∧ (s.countUndelivered n).sessions = s.sessions ∧
    (s.countUndelivered n).intake = s.intake ∧ (s.countUndelivered n).posts = s.posts ∧
    (s.countUndelivered n).scheduler = s.scheduler ∧ (s.countUndelivered n).mac = s.mac ∧
    (s.countUndelivered n).partition = s.partition ∧
    (s.countUndelivered n).stationCounters = s.stationCounters ∧
    (s.countUndelivered n).ports = s.ports ∧ (s.countUndelivered n).pending = s.pending :=
  by unfold State.countUndelivered; split <;> simp

@[simp] theorem State.requestSlot_keeps (s : State) :
    (s.requestSlot).clock = s.clock ∧ (s.requestSlot).pins = s.pins ∧
    (s.requestSlot).store.mem = s.store.mem ∧ (s.requestSlot).store.freeList = s.store.freeList ∧
    (s.requestSlot).table = s.table ∧ (s.requestSlot).sequence = s.sequence ∧
    (s.requestSlot).sessions = s.sessions ∧ (s.requestSlot).intake = s.intake ∧
    (s.requestSlot).posts = s.posts ∧ (s.requestSlot).scheduler = s.scheduler ∧
    (s.requestSlot).mac.link = s.mac.link ∧
    (s.requestSlot).mac.comparePending = s.mac.comparePending ∧ (s.requestSlot).mac.tx = s.mac.tx ∧
    (s.requestSlot).mac.pauseUntil = s.mac.pauseUntil ∧ (s.requestSlot).mac.gen = s.mac.gen ∧
    (s.requestSlot).partition = s.partition ∧ (s.requestSlot).stationCounters = s.stationCounters ∧
    (s.requestSlot).ports = s.ports ∧ (s.requestSlot).pending = s.pending :=
  by unfold State.requestSlot; split <;> simp

@[simp] theorem State.settleFrame_keeps (s : State) (h : Handle) :
    (s.settleFrame h).clock = s.clock ∧ (s.settleFrame h).pins = s.pins ∧
    (s.settleFrame h).store.mem = s.store.mem ∧
    (s.settleFrame h).store.freeList = s.store.freeList ∧
    (s.settleFrame h).table.drafts = s.table.drafts ∧
    (s.settleFrame h).table.generation = s.table.generation ∧
    (s.settleFrame h).sessions = s.sessions ∧ (s.settleFrame h).posts = s.posts ∧
    (s.settleFrame h).scheduler = s.scheduler ∧ (s.settleFrame h).mac.link = s.mac.link ∧
    (s.settleFrame h).mac.comparePending = s.mac.comparePending ∧
    (s.settleFrame h).mac.rxCrc = s.mac.rxCrc ∧ (s.settleFrame h).mac.tx = s.mac.tx ∧
    (s.settleFrame h).mac.pauseUntil = s.mac.pauseUntil ∧ (s.settleFrame h).mac.gen = s.mac.gen ∧
    (s.settleFrame h).partition = s.partition ∧ (s.settleFrame h).ports = s.ports ∧
    (s.settleFrame h).pending = s.pending :=
  by simp [State.settleFrame]

@[simp] theorem State.publish_keeps (s : State) (p : Station) (i : EntryIndex) (c : Contents) :
    (s.publish p i c).clock = s.clock ∧ (s.publish p i c).pins = s.pins ∧
    (s.publish p i c).store = s.store ∧ (s.publish p i c).table.drafts = s.table.drafts ∧
    (s.publish p i c).sequence = s.sequence ∧ (s.publish p i c).sessions = s.sessions ∧
    (s.publish p i c).intake = s.intake ∧ (s.publish p i c).posts = s.posts ∧
    (s.publish p i c).scheduler = s.scheduler ∧ (s.publish p i c).mac = s.mac ∧
    (s.publish p i c).partition = s.partition ∧ (s.publish p i c).linkCounters = s.linkCounters ∧
    (s.publish p i c).stationCounters = s.stationCounters ∧ (s.publish p i c).ports = s.ports ∧
    (s.publish p i c).pending = s.pending :=
  by simp [State.publish]

@[simp] theorem State.disable_keeps (s : State) (i : EntryIndex) :
    (s.disable i).clock = s.clock ∧ (s.disable i).pins = s.pins ∧ (s.disable i).store = s.store ∧
    (s.disable i).table.drafts = s.table.drafts ∧ (s.disable i).sequence = s.sequence ∧
    (s.disable i).sessions = s.sessions ∧ (s.disable i).intake = s.intake ∧
    (s.disable i).posts = s.posts ∧ (s.disable i).scheduler = s.scheduler ∧
    (s.disable i).mac = s.mac ∧ (s.disable i).partition = s.partition ∧
    (s.disable i).attention = s.attention ∧ (s.disable i).linkCounters = s.linkCounters ∧
    (s.disable i).stationCounters = s.stationCounters ∧ (s.disable i).ports = s.ports ∧
    (s.disable i).pending = s.pending :=
  by unfold State.disable; split <;> simp

@[simp] theorem State.retire_keeps (s : State) (p : Station) (i : EntryIndex) :
    (s.retire p i).clock = s.clock ∧ (s.retire p i).pins = s.pins ∧
    (s.retire p i).store = s.store ∧ (s.retire p i).table.drafts = s.table.drafts ∧
    (s.retire p i).sequence = s.sequence ∧ (s.retire p i).sessions = s.sessions ∧
    (s.retire p i).intake = s.intake ∧ (s.retire p i).posts = s.posts ∧
    (s.retire p i).scheduler = s.scheduler ∧ (s.retire p i).mac = s.mac ∧
    (s.retire p i).partition = s.partition ∧ (s.retire p i).linkCounters = s.linkCounters ∧
    (s.retire p i).stationCounters = s.stationCounters ∧ (s.retire p i).ports = s.ports ∧
    (s.retire p i).pending = s.pending :=
  by unfold State.retire; dsimp only; split <;> simp

@[simp] theorem State.startSession_keeps (s : State) (p : Station) :
    (s.startSession p).clock = s.clock ∧ (s.startSession p).pins = s.pins ∧
    (s.startSession p).store = s.store ∧ (s.startSession p).table.entries = s.table.entries ∧
    (s.startSession p).table.generation = s.table.generation ∧
    (s.startSession p).sequence = s.sequence ∧ (s.startSession p).intake = s.intake ∧
    (s.startSession p).scheduler = s.scheduler ∧ (s.startSession p).mac = s.mac ∧
    (s.startSession p).partition = s.partition ∧ (s.startSession p).linkCounters = s.linkCounters ∧
    (s.startSession p).ports = s.ports ∧ (s.startSession p).pending = s.pending :=
  by simp [State.startSession]

@[simp] theorem State.propose_keeps (s : State) (p : Station) (r : PartitionRecord) :
    (s.propose p r).clock = s.clock ∧ (s.propose p r).pins = s.pins ∧
    (s.propose p r).store.mem = s.store.mem ∧ (s.propose p r).store.freeList = s.store.freeList ∧
    (s.propose p r).table = s.table ∧ (s.propose p r).sequence = s.sequence ∧
    (s.propose p r).sessions = s.sessions ∧ (s.propose p r).posts = s.posts ∧
    (s.propose p r).scheduler = s.scheduler ∧ (s.propose p r).mac = s.mac ∧
    (s.propose p r).linkCounters = s.linkCounters ∧ (s.propose p r).ports = s.ports ∧
    (s.propose p r).pending = s.pending :=
  by unfold State.propose; dsimp only; split <;> simp

@[simp] theorem State.releaseRead_keeps (s : State) (p : Station) (r : ReadStream) :
    (s.releaseRead p r).clock = s.clock ∧ (s.releaseRead p r).pins = s.pins ∧
    (s.releaseRead p r).store.mem = s.store.mem ∧
    (s.releaseRead p r).store.freeList = s.store.freeList ∧ (s.releaseRead p r).table = s.table ∧
    (s.releaseRead p r).sequence = s.sequence ∧ (s.releaseRead p r).sessions = s.sessions ∧
    (s.releaseRead p r).posts = s.posts ∧ (s.releaseRead p r).scheduler = s.scheduler ∧
    (s.releaseRead p r).mac = s.mac ∧ (s.releaseRead p r).partition = s.partition ∧
    (s.releaseRead p r).attention = s.attention ∧
    (s.releaseRead p r).linkCounters = s.linkCounters ∧
    (s.releaseRead p r).stationCounters = s.stationCounters ∧ (s.releaseRead p r).ports = s.ports ∧
    (s.releaseRead p r).pending = s.pending :=
  by unfold State.releaseRead; split <;> simp

/-- Which entries apply to a frame of an origin, and with which contents (R48). -/
theorem Entry.applying_eq_some_iff (e : Entry) (origin : Origin) (c : Contents) :
    e.applying origin = some c ↔ e.state = .active ∧ e.contents = some c ∧ c.applies origin = true := by
  unfold Entry.applying
  rcases e with ⟨_ | _ | _, _, _ | d, _⟩ <;> simp
  grind

end Sys2Proof.Machine
end

