-- ==== Sys2Proof/Laws/Events.lean ====
section
/-! SUPPORT. What each shared operation does: the raising of flags, the counters, a command taken on a port, the
release of frames, the generator's answer, and the transmitter's taking of work. -/

namespace Sys2Proof.Machine

/-! ### Flags -/

theorem State.inSession_of_sessions {s t : State} (h : t.sessions = s.sessions) (p : Station) :
    t.inSession p = s.inSession p := by simp [State.inSession, State.session, h]

@[simp] theorem State.raiseFlag_inSession (s : State) (f : Flag) (p q : Station) :
    (s.raiseFlag f p).inSession q = s.inSession q := State.inSession_of_sessions (by simp) q

theorem State.raiseFlag_attention (s : State) (f : Flag) (p q : Station) :
    (s.raiseFlag f p).attention.get q =
      if q = p ∧ s.inSession q = true then (s.attention.get q).raise f else s.attention.get q := by
  unfold State.raiseFlag
  by_cases hq : q = p
  · subst hq; split <;> simp_all
  · split <;> simp [hq, Per.get_set]

theorem State.raiseFlagAt_attention (s : State) (f : Flag) (v : StationSet) (q : Station) :
    (s.raiseFlagAt f v).attention.get q =
      if inSet v q = true ∧ s.inSession q = true then (s.attention.get q).raise f
      else s.attention.get q := by
  have step : ∀ (x : State) (p : Station),
      (if inSet v p = true then x.raiseFlag f p else x).attention.get q =
        if q = p ∧ inSet v q = true ∧ x.inSession q = true then (x.attention.get q).raise f
        else x.attention.get q := by
    intro x p; by_cases h : inSet v p = true
    · simp only [h, if_true, State.raiseFlag_attention]
      by_cases hq : q = p <;> simp [hq, h]
    · by_cases hq : q = p
      · subst hq; simp [h]
      · simp [h, hq]
  have keep : ∀ (x : State) (p : Station),
      (if inSet v p = true then x.raiseFlag f p else x).inSession q = x.inSession q := by
    intro x p; split <;> simp
  unfold State.raiseFlagAt
  simp only [Station.all, List.foldl, step, keep]
  cases q <;> simp

theorem State.raiseFlagEverywhere_attention (s : State) (f : Flag) (q : Station) :
    (s.raiseFlagEverywhere f).attention.get q =
      if s.inSession q = true then (s.attention.get q).raise f else s.attention.get q := by
  unfold State.raiseFlagEverywhere
  simp only [Station.all, List.foldl, State.raiseFlag_attention, State.raiseFlag_inSession]
  cases q <;> simp

theorem Attention.raise_eq (a : Attention) (f : Flag) : a.raise f =
    { flags := a.flags ||| f.single, mask := a.mask,
      attn := ((a.flags ||| f.single) &&& a.mask) != 0 } := rfl

theorem hasFlag_single (f g : Flag) : hasFlag f.single g = decide (f = g) := by
  cases f <;> cases g <;> decide

@[simp] theorem hasFlag_or (a b : FlagSet) (f : Flag) :
    hasFlag (a ||| b) f = (hasFlag a f || hasFlag b f) := by simp [hasFlag]

@[simp] theorem Attention.raise_hasFlag (a : Attention) (f g : Flag) :
    hasFlag (a.raise f).flags g = (hasFlag a.flags g || decide (f = g)) := by
  simp [Attention.raise_eq, hasFlag_single]

@[simp] theorem Attention.raise_mask (a : Attention) (f : Flag) : (a.raise f).mask = a.mask := rfl

theorem State.raiseFlag_raised (s : State) (f : Flag) (p : Station) :
    Raised s (s.raiseFlag f p) f (fun q => q = p) := by
  intro q; rw [State.raiseFlag_attention]
  by_cases hq : q = p
  · subst hq; simp +contextual [Attention.raise_eq]
  · simp [hq]

/-- Raising is read off the flags, the masks and the sessions alone. -/
theorem Raised.of_eq {s s' t : State} {f : Flag} {who : Station → Prop} (r : Raised s' t f who)
    (ha : s'.attention = s.attention) (hs : s'.sessions = s.sessions) : Raised s t f who := by
  intro q
  have := r q
  rwa [ha, State.inSession_of_sessions hs] at this

theorem Raised.to_eq {s t t' : State} {f : Flag} {who : Station → Prop} (r : Raised s t f who)
    (ha : t'.attention = t.attention) : Raised s t' f who := by
  intro q
  have := r q
  rwa [← ha] at this

theorem State.raiseFlagAt_raised (s : State) (f : Flag) (v : StationSet) :
    Raised s (s.raiseFlagAt f v) f (fun q => inSet v q = true) := by
  intro q; rw [State.raiseFlagAt_attention]; constructor <;> intro h <;> simp [h, Attention.raise_eq]

theorem State.raiseFlagEverywhere_raised (s : State) (f : Flag) :
    Raised s (s.raiseFlagEverywhere f) f (fun _ => True) := by
  intro q; rw [State.raiseFlagEverywhere_attention]
  constructor <;> intro h <;> simp_all [Attention.raise_eq]

/-- A flag raised once stays set when other flags are raised. -/
theorem Raised.hasFlag_mono {s t : State} {f : Flag} {who : Station → Prop} (r : Raised s t f who)
    {g : Flag} {q : Station} (h : hasFlag (s.attention.get q).flags g = true) :
    hasFlag (t.attention.get q).flags g = true := by
  by_cases c : who q ∧ s.inSession q = true
  · simp [(r q).1 c, h]
  · rw [(r q).2 c]; exact h

theorem Raised.hasFlag_self {s t : State} {f : Flag} {who : Station → Prop} (r : Raised s t f who)
    {q : Station} (hq : who q) (h : s.inSession q = true) :
    hasFlag (t.attention.get q).flags f = true := by
  simp [(r q).1 ⟨hq, h⟩, hasFlag_single]

/-! ### Several flags of one event -/

theorem Raised.flagsRaised {s t : State} {f : Flag} {who : Station → Prop} (r : Raised s t f who)
    (q : Station) : FlagsRaised s t q fun g => g = f ∧ who q := by
  constructor
  · rintro ⟨hs, g, rfl, hw⟩
    rw [(r q).1 ⟨hw, hs⟩]
    refine ⟨fun g' => ?_, rfl, rfl⟩
    simp [hasFlag_single, hw, @eq_comm _ g']
  · intro h
    exact (r q).2 fun ⟨hw, hs⟩ => h ⟨hs, f, rfl, hw⟩

/-- No flag raised. -/
theorem FlagsRaised.of_eq {s t : State} {q : Station} (h : t.attention.get q = s.attention.get q) :
    FlagsRaised s t q fun _ => False := ⟨fun k => k.2.elim fun _ f => f.elim, fun _ => h⟩

theorem FlagsRaised.congr {s t : State} {q : Station} {a b : Flag → Prop} (h : FlagsRaised s t q a)
    (e : ∀ f, a f ↔ b f) : FlagsRaised s t q b := by
  obtain rfl : a = b := funext fun f => propext (e f)
  exact h

/-- The flags of two parts of one event. -/
theorem FlagsRaised.trans {s t u : State} {q : Station} {a b : Flag → Prop} (h : FlagsRaised s t q a)
    (k : FlagsRaised t u q b) (e : t.inSession q = s.inSession q) :
    FlagsRaised s u q fun f => a f ∨ b f := by
  by_cases hs : s.inSession q = true
  swap
  · refine ⟨fun f => absurd f.1 hs, fun _ => ?_⟩
    rw [k.2 fun f => hs (e ▸ f.1), h.2 fun f => hs f.1]
  by_cases ha : ∃ f, a f
  · obtain ⟨h1, h2, h3⟩ := h.1 ⟨hs, ha⟩
    by_cases hb : ∃ f, b f
    · obtain ⟨k1, k2, k3⟩ := k.1 ⟨e.trans hs, hb⟩
      exact ⟨fun _ => ⟨fun f => by rw [k1, h1, or_assoc], k2.trans h2, k3⟩,
        fun f => absurd ⟨hs, ha.imp fun _ => .inl⟩ f⟩
    · have hb' : ∀ f, ¬ b f := fun f hf => hb ⟨f, hf⟩
      have k2 := k.2 fun f => hb f.2
      exact ⟨fun _ => by rw [k2]; exact ⟨fun f => by rw [h1]; simp [hb'], h2, h3⟩,
        fun f => absurd ⟨hs, ha.imp fun _ => .inl⟩ f⟩
  · have ha' : ∀ f, ¬ a f := fun f hf => ha ⟨f, hf⟩
    have h2 := h.2 fun f => ha f.2
    have hab : (fun f => a f ∨ b f) = b := funext fun f => by simp [ha']
    rw [hab]
    constructor
    · rintro ⟨_, hb⟩
      have := k.1 ⟨e.trans hs, hb⟩
      rwa [h2] at this
    · intro f
      rw [k.2 fun g => f ⟨hs, g.2⟩, h2]

/-! ### Counters -/

@[simp] theorem LinkCounters.get_set (v : LinkCounters) (c d : LinkCounter) (w : Word) :
    (v.set c w).get d = if d = c then w else v.get d := by cases c <;> cases d <;> rfl

@[simp] theorem StationCounters.get_set (v : StationCounters) (c d : StationCounter) (w : Word) :
    (v.set c w).get d = if d = c then w else v.get d := by cases c <;> cases d <;> rfl

@[simp] theorem State.countLink_linkCounters (s : State) (c : LinkCounter) (n : Nat) :
    (s.countLink c n).linkCounters = s.linkCounters.set c (satAdd (s.linkCounters.get c) n) := by
  unfold State.countLink; dsimp only; split <;> simp

@[simp] theorem State.countStation_stationCounters (s : State) (p : Station) (c : StationCounter)
    (n : Nat) : (s.countStation p c n).stationCounters = s.stationCounters.set p
      ((s.stationCounters.get p).set c (satAdd ((s.stationCounters.get p).get c) n)) := by
  unfold State.countStation; dsimp only; split <;> simp

theorem State.countLink_saturated (s : State) (c : LinkCounter) (n : Nat) :
    SaturatedIf (reachesTop (s.linkCounters.get c) n) s (s.countLink c n) := by
  unfold State.countLink SaturatedIf; dsimp only
  cases h : reachesTop (s.linkCounters.get c) n
  · exact ⟨fun h' => by simp at h', fun _ => by simp⟩
  · exact ⟨fun _ => by
      simp only [if_true]
      exact (State.raiseFlagEverywhere_raised _ _).of_eq (by rfl) (by rfl), fun h' => by simp at h'⟩

theorem State.countStation_saturated (s : State) (p : Station) (c : StationCounter) (n : Nat) :
    (reachesTop ((s.stationCounters.get p).get c) n = true →
      Raised s (s.countStation p c n) .saturated (fun q => q = p)) ∧
    (reachesTop ((s.stationCounters.get p).get c) n = false →
      (s.countStation p c n).attention = s.attention) := by
  unfold State.countStation; dsimp only
  cases h : reachesTop ((s.stationCounters.get p).get c) n
  · exact ⟨fun h' => by simp at h', fun _ => by simp⟩
  · exact ⟨fun _ => by
      simp only [if_true]
      exact (State.raiseFlag_raised _ _ _).of_eq (by rfl) (by rfl), fun h' => by simp at h'⟩

theorem satAdd_toNat (c : Word) (n : Nat) : (satAdd c n).toNat = min (c.toNat + n) 4294967295 := by
  simp only [satAdd, counterTop, BitVec.toNat_ofNat]; omega

@[simp] theorem satAdd_zero (c : Word) : satAdd c 0 = c := by
  apply BitVec.eq_of_toNat_eq; rw [satAdd_toNat]; have := c.isLt; omega

/-- Counting at a station keeps every flag that is set. -/
theorem State.countStation_hasFlag {s : State} {p q : Station} {c : StationCounter} {n : Nat} {f : Flag}
    (h : hasFlag (s.attention.get q).flags f = true) :
    hasFlag ((s.countStation p c n).attention.get q).flags f = true := by
  cases r : reachesTop ((s.stationCounters.get p).get c) n
  · rw [(s.countStation_saturated p c n).2 r]; exact h
  · exact ((s.countStation_saturated p c n).1 r).hasFlag_mono h

/-- Counting at the link keeps every flag that is set. -/
theorem State.countLink_hasFlag {s : State} {q : Station} {c : LinkCounter} {n : Nat} {f : Flag}
    (h : hasFlag (s.attention.get q).flags f = true) :
    hasFlag ((s.countLink c n).attention.get q).flags f = true := by
  cases r : reachesTop (s.linkCounters.get c) n
  · rw [(s.countLink_saturated c n).2 r]; exact h
  · exact ((s.countLink_saturated c n).1 r).hasFlag_mono h

/-- Counting at a station touches the Attention Unit of that station only. -/
theorem State.countStation_attention_ne (s : State) {p q : Station} (c : StationCounter) (n : Nat)
    (h : q ≠ p) : (s.countStation p c n).attention.get q = s.attention.get q := by
  cases r : reachesTop ((s.stationCounters.get p).get c) n
  · rw [(s.countStation_saturated p c n).2 r]
  · exact ((s.countStation_saturated p c n).1 r q).2 (by simp [h])

/-! ### A command taken on a port -/

theorem Carries.carries {s : State} {p : Station} {c : Command} {input : List Byte}
    (h : Carries s p c input) : (s.ports.get p).carries c.code input = true := by
  rcases h with h | ⟨h, hc, hi⟩
  · simp [Port.carries, h]
  · simp [Port.carries, h, hc, List.isPrefixOf_iff_prefix, hi]

theorem carries_iff {s : State} {p : Station} {c : Command} {input : List Byte} :
    (s.ports.get p).carries c.code input = true ↔ Carries s p c input := by
  refine ⟨fun h => ?_, Carries.carries⟩
  unfold Port.carries at h
  split at h
  · exact .inl ‹_›
  · rename_i hp
    simp only [Bool.and_eq_true, beq_iff_eq, List.isPrefixOf_iff_prefix] at h
    exact .inr ⟨hp, h.1, h.2⟩
  · simp at h

theorem State.command_carried {s : State} {p : Station} {c : Command} {input : List Byte}
    (h : Carries s p c input) (effect : State → State × Reply) :
    s.command p c input effect = s.takeCommand p c input effect := by
  simp [State.command, State.openFor, h.carries]

/-- The port of a taken command shows the command's answer. -/
theorem Answered.of_taken {s u : State} {p : Station} {c : Command} {input : List Byte} {r : Reply}
    (hu : u.ports = s.ports) :
    Answered s (u.setPort p ((u.ports.get p).taken c input r)) p c r.result r.response where
  phase := by simp [Port.taken]
  code := by simp [Port.taken]
  result := by simp [Port.taken]
  response := by simp [Port.taken]
  lastResult := fun h => by simp [Port.taken, h]
  lastCommand := fun h => by simp [Port.taken, h]
  others := fun q h => by simp [Per.get_set_ne _ _ h, hu]

theorem State.setPort_eq (s : State) (p : Station) (v : Port) :
    s.setPort p v = { s with ports := (s.setPort p v).ports } := by rfl

/-- A command that its session check lets pass answers what its effect answers. -/
theorem State.takeCommand_answered {s u : State} {p : Station} {c : Command} {input : List Byte}
    {effect : State → State × Reply} {r : Reply} (hp : permitted c (s.session p).state = true)
    (he : effect s = (u, r)) (hu : u.ports = s.ports) :
    Answered s (s.takeCommand p c input effect) p c r.result r.response ∧
      ((s.takeCommand p c input effect).ports.get p).reading = r.reading ∧
      s.takeCommand p c input effect = { u with ports := (s.takeCommand p c input effect).ports } := by
  have e : s.takeCommand p c input effect = u.setPort p ((u.ports.get p).taken c input r) := by
    simp [State.takeCommand, checked, hp, he]
  rw [e]
  exact ⟨.of_taken hu, by simp [Port.taken], State.setPort_eq u p _⟩

/-- A command that its session check refuses is answered NOSESSION and changes only its port. -/
theorem State.takeCommand_refused {s : State} {p : Station} {c : Command} {input : List Byte}
    {effect : State → State × Reply} (hp : permitted c (s.session p).state = false) :
    Answered s (s.takeCommand p c input effect) p c .noSession (zeros (refusedLength c)) ∧
      s.takeCommand p c input effect = { s with ports := (s.takeCommand p c input effect).ports } := by
  have e : s.takeCommand p c input effect =
      s.setPort p ((s.ports.get p).taken c input (refuse c .noSession)) := by
    simp [State.takeCommand, checked, hp]
  rw [e]
  exact ⟨.of_taken rfl, State.setPort_eq s p _⟩

end Sys2Proof.Machine
end

