-- ==== Sys2Proof/Laws/Release.lean ====
section
/-! SUPPORT. The close of an event: which frames are released and what the free list gains, the generator's
answer, and the transmitter's taking of work. -/

namespace Sys2Proof

theorem Table.rows_eq_map {n : Nat} {α : Type} (t : Table n α) :
    t.rows = (List.finRange n).map t.get := by
  apply List.ext_getElem
  · simp [t.len]
  · intro k h1 h2; simp [Table.get]

namespace Machine

/-! ### Frames -/

@[simp] theorem State.setFrame_frame (s : State) (h k : Handle) (f : Frame) :
    (s.setFrame h f).frame k = if k = h then f else s.frame k := Table.get_set _ _ _ _

@[simp] theorem State.modifyFrame_frame (s : State) (h k : Handle) (f : Frame → Frame) :
    (s.modifyFrame h f).frame k = if k = h then f (s.frame h) else s.frame k :=
  Table.get_set _ _ _ _

@[simp] theorem State.mapFrames_frame (s : State) (f : Nat → Frame → Frame) (k : Handle) :
    (s.mapFrames f).frame k = f k.val (s.frame k) := Table.get_mapIdx _ _ _

theorem State.frame_of_frames {s t : State} (h : t.store.frames = s.store.frames) (k : Handle) :
    t.frame k = s.frame k := by simp [State.frame, h]

theorem State.frames_ext {s t : State} (h : ∀ k, t.frame k = s.frame k) :
    t.store.frames = s.store.frames := Table.ext_get h

/-! ### Operations that leave the frame table alone -/

@[simp] theorem State.setIntake_frame (s : State) (p : Station) (q : List IntakeEntry) (k : Handle) :
    (s.setIntake p q).frame k = s.frame k := State.frame_of_frames (by simp) k

@[simp] theorem State.setPosts_frame (s : State) (p : Station) (v : PostPath) (k : Handle) :
    (s.setPosts p v).frame k = s.frame k := State.frame_of_frames (by simp) k

@[simp] theorem State.setPort_frame (s : State) (p : Station) (v : Port) (k : Handle) :
    (s.setPort p v).frame k = s.frame k := State.frame_of_frames (by simp) k

@[simp] theorem State.setSession_frame (s : State) (p : Station) (v : Session) (k : Handle) :
    (s.setSession p v).frame k = s.frame k := State.frame_of_frames (by simp) k

@[simp] theorem State.setAttention_frame (s : State) (p : Station) (a : Attention) (k : Handle) :
    (s.setAttention p a).frame k = s.frame k := State.frame_of_frames (by simp) k

@[simp] theorem State.setDraft_frame (s : State) (p : Station) (d : Option Contents) (k : Handle) :
    (s.setDraft p d).frame k = s.frame k := State.frame_of_frames (by simp) k

@[simp] theorem State.setEntry_frame (s : State) (i : EntryIndex) (e : Entry) (k : Handle) :
    (s.setEntry i e).frame k = s.frame k := State.frame_of_frames (by simp) k

@[simp] theorem State.setReceiver_frame (s : State) (v : Receiver) (k : Handle) :
    (s.setReceiver v).frame k = s.frame k := State.frame_of_frames (by simp) k

@[simp] theorem State.raiseGeneration_frame (s : State) (k : Handle) :
    (s.raiseGeneration).frame k = s.frame k := State.frame_of_frames (by simp) k

@[simp] theorem State.raiseFlag_frame (s : State) (f : Flag) (p : Station) (k : Handle) :
    (s.raiseFlag f p).frame k = s.frame k := State.frame_of_frames (by simp) k

@[simp] theorem State.raiseFlagAt_frame (s : State) (f : Flag) (v : StationSet) (k : Handle) :
    (s.raiseFlagAt f v).frame k = s.frame k := State.frame_of_frames (by simp) k

@[simp] theorem State.raiseFlagEverywhere_frame (s : State) (f : Flag) (k : Handle) :
    (s.raiseFlagEverywhere f).frame k = s.frame k := State.frame_of_frames (by simp) k

@[simp] theorem State.countLink_frame (s : State) (c : LinkCounter) (n : Nat) (k : Handle) :
    (s.countLink c n).frame k = s.frame k := State.frame_of_frames (by simp) k

@[simp] theorem State.countStation_frame (s : State) (p : Station) (c : StationCounter) (n : Nat) (k : Handle) :
    (s.countStation p c n).frame k = s.frame k := State.frame_of_frames (by simp) k

@[simp] theorem State.countDrop_frame (s : State) (p : Station) (c : StationCounter) (k : Handle) :
    (s.countDrop p c).frame k = s.frame k := State.frame_of_frames (by simp) k

@[simp] theorem State.complete_frame (s : State) (p : Station) (c : Completion) (k : Handle) :
    (s.complete p c).frame k = s.frame k := State.frame_of_frames (by simp) k

@[simp] theorem State.requestFlow_frame (s : State) (q : Half) (k : Handle) :
    (s.requestFlow q).frame k = s.frame k := State.frame_of_frames (by simp) k

@[simp] theorem State.respond_frame (s : State) (n : Nat) (k : Handle) :
    (s.respond n).frame k = s.frame k := State.frame_of_frames (by simp) k

@[simp] theorem State.reach_frame (s : State) (n : Nat) (k : Handle) :
    (s.reach n).frame k = s.frame k := State.frame_of_frames (by simp) k

@[simp] theorem State.retireOwned_frame (s : State) (p : Station) (k : Handle) :
    (s.retireOwned p).frame k = s.frame k := State.frame_of_frames (by simp) k

@[simp] theorem State.goOffline_frame (s : State) (p : Station) (k : Handle) :
    (s.goOffline p).frame k = s.frame k := State.frame_of_frames (by simp) k

@[simp] theorem State.clearScheduler_frame (s : State) (p : Station) (k : Handle) :
    (s.clearScheduler p).frame k = s.frame k := State.frame_of_frames (by simp) k

@[simp] theorem State.clearAttention_frame (s : State) (p : Station) (k : Handle) :
    (s.clearAttention p).frame k = s.frame k := State.frame_of_frames (by simp) k

@[simp] theorem State.abandon_frame (s : State) (o : Proposal) (k : Handle) :
    (s.abandon o).frame k = s.frame k := State.frame_of_frames (by simp) k

@[simp] theorem State.countAsleep_frame (s : State) (v : StationSet) (k : Handle) :
    (s.countAsleep v).frame k = s.frame k := State.frame_of_frames (by simp) k

@[simp] theorem State.countPost_frame (s : State) (p : Station) (n : Nat) (k : Handle) :
    (s.countPost p n).frame k = s.frame k := State.frame_of_frames (by simp) k

@[simp] theorem State.countSent_frame (s : State) (p : Station) (h : Handle) (k : Handle) :
    (s.countSent p h).frame k = s.frame k := State.frame_of_frames (by simp) k

@[simp] theorem State.reportEnd_frame (s : State) (p : Station) (h : Handle) (v : PostOutcome) (k : Handle) :
    (s.reportEnd p h v).frame k = s.frame k := State.frame_of_frames (by simp) k

@[simp] theorem State.countGood_frame (s : State) (n : Nat) (k : Handle) :
    (s.countGood n).frame k = s.frame k := State.frame_of_frames (by simp) k

@[simp] theorem State.countUndelivered_frame (s : State) (n : Nat) (k : Handle) :
    (s.countUndelivered n).frame k = s.frame k := State.frame_of_frames (by simp) k

@[simp] theorem State.raiseHits_frame (s : State) (l : List EntryIndex) (k : Handle) :
    (s.raiseHits l).frame k = s.frame k := State.frame_of_frames (by simp) k

@[simp] theorem State.startFlow_frame (s : State) (v : Speed) (q : Half) (k : Handle) :
    (s.startFlow v q).frame k = s.frame k := State.frame_of_frames (by simp) k

@[simp] theorem State.storeBytes_frame (s : State) (h : Handle) (o : Nat) (l : List Byte) (k : Handle) :
    (s.storeBytes h o l).frame k = s.frame k := State.frame_of_frames (by simp) k

@[simp] theorem State.takeGranules_frame (s : State) (n : Nat) (k : Handle) :
    (s.takeGranules n).frame k = s.frame k := State.frame_of_frames (by simp) k

@[simp] theorem State.checkArrival_frame (s : State) (b : Byte) (k : Handle) :
    (s.checkArrival b).frame k = s.frame k := State.frame_of_frames (by simp) k

@[simp] theorem State.takeDown_frame (s : State) (k : Handle) :
    (s.takeDown).frame k = s.frame k := State.frame_of_frames (by simp) k

/-! ### Release -/

@[simp] theorem lostLastHold_self (f : Frame) : lostLastHold f f = false := by
  simp [lostLastHold]

@[simp] theorem State.releaseLost_frame (b s : State) (h : Handle) :
    (State.releaseLost b s).frame h =
      if lostLastHold (b.frame h) (s.frame h) then Frame.free else s.frame h := by
  simp only [State.releaseLost, State.frame, releaseRecords, Table.get_zipWith]
  rfl

theorem releasedChains_map {α : Type} (l : List α) (f g : α → Frame) :
    releasedChains (l.map f) (l.map g) =
      l.flatMap fun h => if lostLastHold (f h) (g h) then (g h).chain else [] := by
  induction l with
  | nil => rfl
  | cons a l ih =>
    simp only [List.map_cons, List.flatMap_cons, releasedChains, ih]
    split <;> simp

theorem State.releaseLost_freeList (b s : State) :
    (State.releaseLost b s).store.freeList = s.store.freeList ++ (List.finRange 128).flatMap fun h =>
      if lostLastHold (b.frame h) (s.frame h) then (s.frame h).chain else [] := by
  simp only [State.releaseLost, Table.rows_eq_map, releasedChains_map]
  rfl

@[simp] theorem State.closeEvent_store (b s : State) :
    (State.closeEvent b s).store = (State.releaseLost b s).store := by
  unfold State.closeEvent; dsimp only; split <;> simp

@[simp] theorem State.closeEvent_frame (b s : State) (h : Handle) :
    (State.closeEvent b s).frame h =
      if lostLastHold (b.frame h) (s.frame h) then Frame.free else s.frame h := by
  rw [← State.releaseLost_frame]; exact State.frame_of_frames (by simp) h

theorem State.closeEvent_freeList (b s : State) :
    (State.closeEvent b s).store.freeList = s.store.freeList ++ (List.finRange 128).flatMap fun h =>
      if lostLastHold (b.frame h) (s.frame h) then (s.frame h).chain else [] := by
  rw [State.closeEvent_store, State.releaseLost_freeList]

theorem State.closeEvent_eq (b s : State) : State.closeEvent b s =
    { s with store := (State.closeEvent b s).store, mac := (State.closeEvent b s).mac } := by
  apply State.ext <;> simp

/-! ### The generator's answer, and the transmitter's work -/

theorem State.requestFlow_mac {s : State} {speed : Speed} (q : Half) (h : s.mac.link = .up speed) :
    (s.requestFlow q).mac =
      s.mac.requested speed s.clock.now q s.mac.gen.asserted s.mac.gen.refreshAt := by
  unfold State.requestFlow State.takeWork Mac.requested
  cases ht : s.mac.tx <;> simp [State.startFlow, Speed.sendTime, minWireLength, h, ht]

/-- The generator's response is Table 7-6, line by line. -/
theorem State.respond_answered (s : State) (n : Nat) :
    LengthAnswered s.mac (s.respond n).mac s.clock.now n s.partition.installed where
  down := fun h => by simp [State.respond, h]
  low := fun speed hl ha hn => by
    simp only [State.respond, hl, ha, hn, if_true]
    refine (State.requestFlow_mac (speed := speed) _ rfl).trans ?_
    unfold Mac.requested; dsimp only; split <;> simp [hl, Speed.refreshTime]
  enough := fun ha hn => by
    cases hl : s.mac.link <;> simp [State.respond, hl, ha, Nat.not_lt.mpr hn]
  short := fun ha hn => by
    cases hl : s.mac.link <;> simp [State.respond, hl, ha, Nat.not_le.mpr hn]
  resumed := fun speed hl ha hn => by
    simp only [State.respond, hl, ha, hn, if_true]
    refine (State.requestFlow_mac (speed := speed) _ rfl).trans ?_
    unfold Mac.requested; dsimp only; split <;> simp [hl, Speed.refreshTime]

theorem LengthAnswered.sides {m n : Mac} {now length : Nat} {r : PartitionRecord}
    (h : LengthAnswered m n now length r) :
    n.link = m.link ∧ n.comparePending = m.comparePending ∧ n.receiver = m.receiver ∧
      n.rxCrc = m.rxCrc ∧ n.pauseUntil = m.pauseUntil := by
  cases hl : m.link with
  | down => rw [h.down hl]; simp [hl]
  | up speed =>
    cases ha : m.gen.asserted
    · rcases Nat.lt_or_ge length r.pauseOn.toNat with hn | hn
      · rw [h.low speed hl ha hn]; unfold Mac.requested; split <;> simp [hl]
      · rw [h.enough ha hn]; simp [hl]
    · rcases Nat.lt_or_ge length r.pauseOff.toNat with hn | hn
      · rw [h.short ha hn]; simp [hl]
      · rw [h.resumed speed hl ha hn]; unfold Mac.requested; split <;> simp [hl]

theorem GeneratorAnswers.sides {s t : State} (h : GeneratorAnswers s t) :
    t.mac.link = s.mac.link ∧ t.mac.comparePending = s.mac.comparePending ∧
      t.mac.receiver = s.mac.receiver ∧ t.mac.rxCrc = s.mac.rxCrc ∧
      t.mac.pauseUntil = s.mac.pauseUntil := by
  by_cases k : lengthHanded s t
  · exact (h.handed k).sides
  · rw [h.unhanded k]; simp

theorem GeneratorAnswers.of_mac {s t : State} (h : t.mac = s.mac) (k : ¬ lengthHanded s t) :
    GeneratorAnswers s t := ⟨fun _ => h, fun f => absurd f k⟩

theorem GeneratorAnswers.refl (s : State) : GeneratorAnswers s s :=
  .of_mac rfl (by simp [lengthHanded])

/-- Whether a length is handed depends on the free list and the installed record alone. -/
theorem lengthHanded_congr {s s' t t' : State} (hl : s'.store.freeList = s.store.freeList)
    (hp : s'.partition.installed = s.partition.installed)
    (hl' : t'.store.freeList = t.store.freeList)
    (hp' : t'.partition.installed = t.partition.installed) :
    lengthHanded s' t' ↔ lengthHanded s t := by simp [lengthHanded, hl, hp, hl', hp']

theorem thresholdsChanged_iff (b s : State) : thresholdsChanged b s = true ↔
    s.partition.installed.pauseOn ≠ b.partition.installed.pauseOn ∨
    s.partition.installed.pauseOff ≠ b.partition.installed.pauseOff ∨
    s.partition.installed.quanta ≠ b.partition.installed.quanta := by
  simp [thresholdsChanged, or_assoc, @eq_comm _ b.partition.installed.pauseOn,
    @eq_comm _ b.partition.installed.pauseOff, @eq_comm _ b.partition.installed.quanta]

/-- The close of an event hands the generator a length once, and only if there is one to hand: `c` is the hub before
the event, but for what the event itself did at the Link MAC. -/
theorem State.closeEvent_answers {b s c : State} (hm : s.mac = c.mac)
    (hl : c.store.freeList = b.store.freeList)
    (hp : c.partition.installed = b.partition.installed) :
    GeneratorAnswers c (State.closeEvent b s) := by
  have hh : lengthHanded c (State.closeEvent b s) ↔
      ((State.releaseLost b s).store.freeList.length ≠ b.store.freeList.length ∨
        thresholdsChanged b s = true) := by
    rw [thresholdsChanged_iff]; simp [lengthHanded, hl, hp]
  have he : State.closeEvent b s =
      if (State.releaseLost b s).store.freeList.length ≠ b.store.freeList.length ∨
        thresholdsChanged b s = true
      then (State.releaseLost b s).respond (State.releaseLost b s).store.freeList.length
      else State.releaseLost b s := rfl
  constructor
  · intro k
    rw [hh] at k
    rw [he, if_neg k, ← hm]; rfl
  · intro k
    rw [hh] at k
    have := State.respond_answered (State.releaseLost b s) (State.releaseLost b s).store.freeList.length
    rw [he, if_pos k, ← hm]
    simpa using this

theorem GeneratorAnswers.to_eq {s t t' : State} (h : GeneratorAnswers s t) (hm : t'.mac = t.mac)
    (hc : t'.clock.now = t.clock.now) (hl : t'.store.freeList = t.store.freeList)
    (hp : t'.partition.installed = t.partition.installed) : GeneratorAnswers s t' := by
  have k := lengthHanded_congr (s := s) rfl rfl hl hp
  exact ⟨fun f => hm.trans (h.unhanded fun g => f (k.mpr g)), fun f => by
    rw [hm, hc, hl, hp]; exact h.handed (k.mp f)⟩

/-- Taking work does what R142 says, case by case. -/
theorem State.takeWork_tookWork (s : State) : TookWork s s.takeWork where
  busy := fun h => by
    unfold State.takeWork
    rcases h with h | h
    · cases hl : s.mac.link <;> cases ht : s.mac.tx <;> simp_all
    · simp [h]
  request := fun speed q hl ht hp => by
    simp [State.takeWork, hl, ht, hp, State.startFlow, Speed.sendTime, minWireLength]
  paused := fun hp hu => by
    unfold State.takeWork
    obtain ⟨u, hu⟩ := Option.ne_none_iff_exists'.mp hu
    cases hl : s.mac.link <;> cases ht : s.mac.tx <;> simp [hp, hu]
  nothing := fun hl ht hp hu v he => by
    cases hl' : s.mac.link with
    | down => exact absurd hl' hl
    | up speed => simp [State.takeWork, hl', ht, hp, hu, State.askScheduler, he]
  chosen := fun speed hl ht hp hu p v e more he hq hf => by
    have hf' : (s.store.frames.get e.handle).state ≠ .free := hf
    simp [State.takeWork, hl, ht, hp, hu, State.askScheduler, he, State.startStation, hq,
      State.setPosts, State.modifyFrame, State.setFrame, State.frame, Frame.addHold, hf', Speed.sendTime]

/-! ### Holds removed -/

/-- The close of an event that took no hold off its last frame and changed no length and no threshold does
nothing. -/
theorem State.closeEvent_nothing {b s : State} (hl : s.store.freeList = b.store.freeList)
    (hf : ∀ h, lostLastHold (b.frame h) (s.frame h) = false) (ht : thresholdsChanged b s = false) :
    State.closeEvent b s = s := by
  have hs : (State.releaseLost b s).store = s.store := by
    apply FrameStore.ext
    · rfl
    · rw [State.releaseLost_freeList]; simp [hf]
    · exact State.frames_ext (t := State.releaseLost b s) fun k => by simp [hf]
  have he : State.releaseLost b s = s := by
    apply State.ext <;> first | exact hs | rfl
  unfold State.closeEvent
  simp [he, hl, ht]

theorem thresholdsChanged_of_eq {b s : State} (h : s.partition.installed = b.partition.installed) :
    thresholdsChanged b s = false := by simp [thresholdsChanged, h]

theorem State.closeEvent_same {b s : State} (hs : s.store = b.store)
    (hp : s.partition.installed = b.partition.installed) : State.closeEvent b s = s :=
  State.closeEvent_nothing (by rw [hs]) (fun h => by simp [State.frame_of_frames (s := b) (t := s) (by rw [hs]) h])
    (thresholdsChanged_of_eq hp)

/-- Holds taken off frames, and nothing else of the store changed, are a removal once the event is closed. -/
theorem State.closeEvent_holdsRemoved {b s : State} {left : Handle → Holds}
    (hf : ∀ h, s.frame h = { b.frame h with holds := left h })
    (hl : s.store.freeList = b.store.freeList) (hm : s.store.mem = b.store.mem) :
    HoldsRemoved b (State.closeEvent b s) left where
  unheld := fun h h1 h2 => by
    have e : left h = (b.frame h).holds := by
      simp only [Holds.isEmpty, beq_iff_eq] at h1 h2
      rw [h1, h2]
    simp [hf, lostLastHold, h1, e]
  released := fun h h1 h2 => by simp [hf, lostLastHold, h1, h2]
  kept := fun h h1 => by simp [hf, lostLastHold, h1]
  freeList := by
    rw [State.closeEvent_freeList, hl]
    congr 1
    apply List.flatMap_congr
    intro h _
    simp [hf, lostLastHold]
  mem := by simpa using hm

/-- Holds taken off one frame. -/
theorem State.closeEvent_releasedOrKept {b s : State} {h : Handle} {left : Holds}
    (hb : (b.frame h).holds.isEmpty = false) (hf : s.frame h = { b.frame h with holds := left })
    (ho : ∀ k, k ≠ h → s.frame k = b.frame k) (hl : s.store.freeList = b.store.freeList) :
    ReleasedOrKept b (State.closeEvent b s) h left ∧ OnlyFrame b (State.closeEvent b s) h := by
  have hfl : (State.closeEvent b s).store.freeList =
      b.store.freeList ++ if left.isEmpty then (b.frame h).chain else [] := by
    rw [State.closeEvent_freeList, hl]
    congr 1
    have e : ∀ k : Handle, (if lostLastHold (b.frame k) (s.frame k) = true then (s.frame k).chain else []) =
        if k = h then (if left.isEmpty then (b.frame h).chain else []) else [] := by
      intro k
      by_cases hk : k = h
      · subst hk; simp [hf, lostLastHold, hb]
      · simp [ho k hk, hk]
    simp only [e]
    have := List.nodup_finRange 128
    have hm : h ∈ List.finRange 128 := List.mem_finRange h
    generalize (if left.isEmpty then (b.frame h).chain else []) = c
    clear e
    revert this hm
    generalize List.finRange 128 = l
    intro hn hm
    induction l with
    | nil => simp at hm
    | cons a l ih =>
      rw [List.nodup_cons] at hn
      rw [List.flatMap_cons]
      by_cases ha : a = h
      · subst ha
        have : (l.flatMap fun k => if k = a then c else []) = [] := by
          rw [List.flatMap_eq_nil_iff]
          intro k hk
          have : k ≠ a := fun e => hn.1 (e ▸ hk)
          simp [this]
        simp [this]
      · have hm' : h ∈ l := by
          rcases List.mem_cons.mp hm with e | e
          · exact absurd e.symm ha
          · exact e
        simp [ha, ih hn.2 hm']
  refine ⟨⟨fun he => ⟨?_, ?_⟩, fun he => ⟨?_, ?_⟩⟩, fun k hk => ?_⟩
  · simp [hf, lostLastHold, hb, he]
  · rw [hfl, if_pos he]
  · simp [hf, lostLastHold, he]
  · rw [hfl, if_neg (by simp [he]), List.append_nil]
  · simp [ho k hk]

theorem Holds.nonempty_of_read {h : Holds} {p : Station} (r : inSet h.read p = true) :
    h.isEmpty = false := by
  cases e : h.isEmpty
  · rfl
  · have := Holds.isEmpty_iff.mp e; simp_all

theorem Holds.nonempty_of_build {h : Holds} {p : Station} (r : inSet h.build p = true) :
    h.isEmpty = false := by
  cases e : h.isEmpty
  · rfl
  · have := Holds.isEmpty_iff.mp e; simp_all

theorem Holds.nonempty_of_intake {h : Holds} {p : Station} (r : inSet h.intake p = true) :
    h.isEmpty = false := by
  cases e : h.isEmpty
  · rfl
  · have := Holds.isEmpty_iff.mp e; simp_all

theorem Holds.nonempty_of_post {h : Holds} {p : Station} (r : inSet h.post p = true) :
    h.isEmpty = false := by
  cases e : h.isEmpty
  · rfl
  · have := Holds.isEmpty_iff.mp e; simp_all

end Machine

end Sys2Proof
end

