-- ==== Sys2Proof/Laws/Commands.lean ====
section
/-! SUPPORT. The rows that are station commands: which effect each has, what no effect touches, and what a refused
one answers; and the bytes of a partition record. -/

namespace Sys2Proof.Machine

@[simp] theorem State.post_ports (s : State) (p : Station) (h : Handle) (v : PostFlags) :
    (s.post p h v).1.ports = s.ports := by
  unfold State.post; dsimp only; split <;> simp [State.dropBuildHold, State.settlePost]

theorem permitted_iff (c : Command) (v : SessionState) : permitted c v = decide (v ∈ sessionsFor c) := by
  cases c <;> cases v <;> rfl

theorem shareOfBytes_recordBytes (r : PartitionRecord) (p : Station) : shareOfBytes (recordBytes r) p = r.share.get p := by
  have hb : ∀ v : Share, (shareBytes v).length = 4 := by intro v; simp [shareBytes]
  have key : ∀ (front back : List Byte) (v : Share) (k : Nat), front.length = k →
      inHalf (front ++ shareBytes v ++ back) k = v.quota ∧ inByte (front ++ shareBytes v ++ back) (k+2) = v.allowance ∧
      inByte (front ++ shareBytes v ++ back) (k+3) = v.weight := by
    rintro front back v k rfl
    refine ⟨?_, ?_, ?_⟩
    · have := inHalf_append front ([v.allowance, v.weight] ++ back) v.quota
      simpa [shareBytes] using this
    · have := inByte_append (front ++ halfBytes v.quota) ([v.weight] ++ back) v.allowance
      simpa [shareBytes] using this
    · have := inByte_append (front ++ halfBytes v.quota ++ [v.allowance]) back v.weight
      simpa [shareBytes] using this
  have fin : ∀ front back k, front.length = k → recordBytes r = front ++ shareBytes (r.share.get p) ++ back → k = 4 * p.idx →
      shareOfBytes (recordBytes r) p = r.share.get p := by
    intro front back k hk he hp
    obtain ⟨h1, h2, h3⟩ := key front back (r.share.get p) k hk
    rw [he]; unfold shareOfBytes; rw [← hp, h1, h2, h3]
  cases p
  · exact fin [] _ 0 rfl (by simp only [recordBytes, List.append_assoc, List.nil_append]; rfl) rfl
  · exact fin (shareBytes (r.share.get .s0)) _ 4 (hb _) (by simp only [recordBytes, List.append_assoc]; rfl) rfl
  · exact fin (shareBytes (r.share.get .s0) ++ shareBytes (r.share.get .s1)) _ 8 (by simp [hb]) (by simp only [recordBytes, List.append_assoc]; rfl) rfl
  · exact fin (shareBytes (r.share.get .s0) ++ shareBytes (r.share.get .s1) ++ shareBytes (r.share.get .s2)) _ 12 (by simp [hb]) (by simp only [recordBytes, List.append_assoc]; rfl) rfl

theorem recordOfBytes_recordBytes (r : PartitionRecord) : recordOfBytes (recordBytes r) = r := by
  have hb : ∀ v : Share, (shareBytes v).length = 4 := by intro v; simp [shareBytes]
  let pre := shareBytes (r.share.get .s0) ++ shareBytes (r.share.get .s1) ++ shareBytes (r.share.get .s2) ++ shareBytes (r.share.get .s3)
  have hp : pre.length = 16 := by simp [pre, hb]
  have e : recordBytes r = pre ++ [r.reserve] ++ halfBytes r.pauseOn ++ halfBytes r.pauseOff ++ halfBytes r.quanta ++ halfBytes r.holdLimit := rfl
  have h1 : (Per.of (shareOfBytes (recordBytes r))) = r.share := Per.ext_get fun p => by simp [shareOfBytes_recordBytes]
  have h2 : inByte (recordBytes r) 16 = r.reserve := by
    have := inByte_append pre (halfBytes r.pauseOn ++ halfBytes r.pauseOff ++ halfBytes r.quanta ++ halfBytes r.holdLimit) r.reserve
    rw [e]; simpa [hp] using this
  have h3 : inHalf (recordBytes r) 17 = r.pauseOn := by
    have := inHalf_append (pre ++ [r.reserve]) (halfBytes r.pauseOff ++ halfBytes r.quanta ++ halfBytes r.holdLimit) r.pauseOn
    rw [e]; simpa [hp] using this
  have h4 : inHalf (recordBytes r) 19 = r.pauseOff := by
    have := inHalf_append (pre ++ [r.reserve] ++ halfBytes r.pauseOn) (halfBytes r.quanta ++ halfBytes r.holdLimit) r.pauseOff
    rw [e]; simpa [hp] using this
  have h5 : inHalf (recordBytes r) 21 = r.quanta := by
    have := inHalf_append (pre ++ [r.reserve] ++ halfBytes r.pauseOn ++ halfBytes r.pauseOff) (halfBytes r.holdLimit) r.quanta
    rw [e]; simpa [hp] using this
  have h6 : inHalf (recordBytes r) 23 = r.holdLimit := by
    have := inHalf_append (pre ++ [r.reserve] ++ halfBytes r.pauseOn ++ halfBytes r.pauseOff ++ halfBytes r.quanta) [] r.holdLimit
    rw [e]; simpa [hp] using this
  simp only [recordOfBytes, h1, h2, h3, h4, h5, h6]

theorem inHalf_halfBytes (h : Half) : inHalf (halfBytes h) 0 = h := by simpa using inHalf_append [] [] h

theorem exec_command {i : Instr} {p c input} (s : State) (h : commandInput i = some (p, c, input)) (hw : i.wf = true) :
    exec i s = .next (s.command p c input (effectOf c p input)) := by
  cases i <;> simp only [commandInput, Option.some.injEq, Prod.mk.injEq, reduceCtorEq] at h
  all_goals obtain ⟨rfl, rfl, rfl⟩ := h
  case draft => exact if_pos hw
  case txwrite p handle offset data =>
    have h1 : inHalf ([handle] ++ halfBytes offset ++ beBytes 2 data.length ++ data) 1 = offset := by
      simpa using inHalf_append [handle] (beBytes 2 data.length ++ data) offset
    have h2 : ([handle] ++ halfBytes offset ++ beBytes 2 data.length ++ data).drop 5 = data := by
      apply List.drop_left'; simp
    simp only [effectOf, h1, h2]; exact if_pos hw
  case rxread p handle offset count release =>
    have h1 : inHalf ([handle] ++ halfBytes offset ++ halfBytes count ++ [release]) 1 = offset := by
      simpa using inHalf_append [handle] (halfBytes count ++ [release]) offset
    have h2 : inHalf ([handle] ++ halfBytes offset ++ halfBytes count ++ [release]) 3 = count := by
      simpa using inHalf_append ([handle] ++ halfBytes offset) ([release]) count
    have h3 : inByte ([handle] ++ halfBytes offset ++ halfBytes count ++ [release]) 5 = release := by
      simpa using inByte_append ([handle] ++ halfBytes offset ++ halfBytes count) [] release
    simp only [effectOf, h1, h2, h3]; rfl
  case txopen => simp only [effectOf, inHalf_halfBytes]; rfl
  case endorse => simp only [effectOf, inHalf_halfBytes]; rfl
  case object => simp only [effectOf, inHalf_halfBytes]; rfl
  case setmask => simp only [effectOf, inHalf_halfBytes]; rfl
  case propose => simp only [effectOf, recordOfBytes_recordBytes]; rfl
  all_goals rfl

/-- No effect of a command touches a port, and one that is answered other than OK changes nothing and answers with
zeros. -/
theorem effectOf_spec (c : Command) (p : Station) (input : List Byte) (s : State) :
    (effectOf c p input s).1.ports = s.ports ∧
    ((effectOf c p input s).2.result ≠ .ok →
      (effectOf c p input s).1 = s ∧ ∀ b ∈ (effectOf c p input s).2.response, b = 0) := by
  have hz : ∀ n b, b ∈ zeros n → b = 0 := by intro n b h; exact (List.mem_replicate.mp h).2
  cases c <;> simp only [effectOf]
  case status => simp [statusEffect, answer]
  case getresult => simp [getresultEffect, answer]
  case linkstatus => simp [linkstatusEffect, answer]
  case pread => simp [preadEffect, answer]
  case join => unfold joinEffect; split <;> simp [answer, refuse]; exact hz _
  case leave => simp [leaveEffect, answer]
  case suspend => simp [suspendEffect, answer]
  case resume => simp [resumeEffect, answer]
  case setaccept => unfold setacceptEffect; split <;> [split; skip] <;> simp [answer, refuse] <;> exact hz _
  case claim => unfold claimEffect; split <;> [skip; (split <;> [skip; split])] <;> simp [answer, refuse] <;> (try intro (_ : ¬ _)) <;> exact hz _
  case draft => unfold draftEffect; split <;> simp [answer, refuse]; exact hz _
  case publish => unfold publishEffect; split <;> [skip; split] <;> simp [answer, refuse] <;> (try intro (_ : ¬ _)) <;> exact hz _
  case disable => unfold disableEffect; split <;> simp [answer, refuse] <;> (try intro (_ : ¬ _)) <;> exact hz _
  case retire => unfold retireEffect; split <;> simp [answer, refuse] <;> (try intro (_ : ¬ _)) <;> exact hz _
  case tread => unfold treadEffect; split <;> simp [answer, refuse] <;> exact hz _
  case rxpeek => unfold rxpeekEffect; dsimp only; split <;> [skip; split] <;> simp [answer, refuse] <;> exact hz _
  case rxread => unfold rxreadEffect; split <;> [skip; split] <;> simp [answer, refuse, State.addReadHold] <;> exact hz _
  case rxrelease => unfold rxreleaseEffect; split <;> simp [answer, refuse] <;> exact hz _
  case txopen => unfold txopenEffect; split <;> [skip; (split <;> [skip; split])] <;> simp [answer, refuse, State.openBuild] <;> exact hz _
  case txwrite => unfold txwriteEffect; split <;> [skip; split] <;> simp [answer, refuse] <;> exact hz _
  case txpost => unfold txpostEffect; split <;> [skip; split] <;> simp [answer, refuse] <;> exact hz _
  case txcancel => unfold txcancelEffect; split <;> [skip; (split <;> [skip; split])] <;> simp [answer, refuse] <;> exact hz _
  case txdone => unfold txdoneEffect; split <;> simp [answer, refuse] <;> exact hz _
  case propose => unfold proposeEffect; split <;> [skip; split] <;> simp [answer, refuse] <;> exact hz _
  case endorse => unfold endorseEffect; split <;> simp [answer, refuse] <;> (try intro (_ : ¬ _)) <;> exact hz _
  case object => unfold objectEffect; split <;> simp [answer, refuse] <;> (try intro (_ : ¬ _)) <;> exact hz _
  case events => simp [eventsEffect, answer]
  case setmask => unfold setmaskEffect; split <;> simp [answer, refuse] <;> exact hz _
  case snapshot => unfold snapshotEffect; dsimp only; split <;> simp [answer, refuse] <;> exact hz _

/-- A row that is a station command, on a transaction that carries it and in a session state that permits it,
answers what its effect answers and makes its effect. -/
theorem exec_answered {i : Instr} {p : Station} {c : Command} {input : List Byte} {s u : State}
    {r : Reply} (hi : commandInput i = some (p, c, input)) (hw : i.wf = true)
    (hc : Carries s p c input) (hs : permitted c (s.session p).state = true)
    (he : effectOf c p input s = (u, r)) :
    ∃ t, exec i s = .next t ∧ Answered s t p c r.result r.response ∧
      (t.ports.get p).reading = r.reading ∧ t = { u with ports := t.ports } := by
  refine ⟨_, exec_command s hi hw, ?_⟩
  rw [State.command_carried hc]
  have h1 := (effectOf_spec c p input s).1
  rw [he] at h1
  exact State.takeCommand_answered hs he h1

end Sys2Proof.Machine
end

