-- ==== Sys2Proof/Laws/Memory.lean ====
section
/-! SUPPORT. Laws of the granule memory: what a read gives after each operation, and that every operation keeps
the canonical form. -/

namespace Sys2Proof.Machine

/-! ### Reads -/

theorem readByte_filter (m : Memory) (c : Nat → Bool) (a : Nat) :
    readByte (m.filter fun x => c x.1) a = if c a then readByte m a else 0 := by
  induction m with
  | nil => simp [readByte]
  | cons x rest ih =>
    rw [List.filter_cons]
    by_cases hx : x.1 = a
    · cases hc : c x.1
      · subst hx; simpa [hc] using ih
      · subst hx; simp [hc, readByte]
    · cases hc : c x.1 <;> simp [readByte, hx, ih]

theorem readByte_insertCell (m : Memory) (a k : Nat) (b : Byte) (h : ∀ c ∈ m, c.1 ≠ a) :
    readByte (insertCell a b m) k = if k = a then b else readByte m k := by
  induction m with
  | nil => simp [insertCell, readByte, eq_comm]
  | cons x rest ih =>
    have hx : x.1 ≠ a := h x (by simp)
    have ih := ih fun c hc => h c (by simp [hc])
    by_cases hk : k = a
    · subst hk
      by_cases ha : k < x.1
      · simp [insertCell, ha, readByte]
      · simp [insertCell, ha, readByte, hx, ih]
    · have hk' : ¬ a = k := fun e => hk e.symm
      by_cases ha : a < x.1
      · simp [insertCell, ha, readByte, hk, hk']
      · simp [insertCell, ha, readByte, hk, ih]

/-- What a write changes: the byte at its address, and no other. -/
theorem readByte_writeByte (m : Memory) (a k : Nat) (b : Byte) :
    readByte (writeByte m a b) k = if k = a then b else readByte m k := by
  have hne : ∀ c ∈ m.filter (fun x => decide (x.1 ≠ a)), c.1 ≠ a := by
    intro c hc; simpa using (List.mem_filter.mp hc).2
  have hread := readByte_filter m (fun x => decide (x ≠ a)) k
  by_cases hb : b = 0
  · simp only [writeByte, hb, if_true, hread]
    by_cases hk : k = a <;> simp [hk]
  · simp only [writeByte, hb, if_false]
    rw [readByte_insertCell _ _ _ _ hne, hread]
    by_cases hk : k = a <;> simp [hk]

/-- A granule taken from the free list reads as zeros; every other byte is unchanged (R1). -/
theorem readByte_zeroGranule (m : Memory) (g : Granule) (k : Nat) :
    readByte (zeroGranule m g) k = if k / granuleSize = g.val then 0 else readByte m k := by
  have := readByte_filter m (fun x => decide (x / granuleSize ≠ g.val)) k
  simp only [zeroGranule, this]
  by_cases hk : k / granuleSize = g.val <;> simp [hk]

/-- A run of writes leaves every address it does not name. -/
theorem readByte_writeBytes_of_notMem (cells : List Host.Cell) (m : Memory) (k : Nat)
    (h : ∀ c ∈ cells, c.1 ≠ k) : readByte (writeBytes m cells) k = readByte m k := by
  induction cells generalizing m with
  | nil => rfl
  | cons c rest ih =>
    show readByte (writeBytes (writeByte m c.1 c.2) rest) k = _
    rw [ih _ fun d hd => h d (by simp [hd]), readByte_writeByte]
    have := h c (by simp)
    simp [Ne.symm this]

/-! ### The canonical form -/

theorem mem_insertCell {m : Memory} {a : Nat} {b : Byte} {c : Host.Cell} :
    c ∈ insertCell a b m ↔ c = (a, b) ∨ c ∈ m := by
  induction m with
  | nil => simp [insertCell]
  | cons x rest ih =>
    by_cases ha : a < x.1
    · simp [insertCell, ha]
    · simp [insertCell, ha, ih]; tauto

theorem pairwise_insertCell {m : Memory} {a : Nat} {b : Byte}
    (h : m.Pairwise fun c d => c.1 < d.1) (hne : ∀ c ∈ m, c.1 ≠ a) :
    (insertCell a b m).Pairwise fun c d => c.1 < d.1 := by
  induction m with
  | nil => simp [insertCell]
  | cons x rest ih =>
    have hx := hne x (by simp)
    rw [List.pairwise_cons] at h
    by_cases ha : a < x.1
    · simp only [insertCell, ha, if_true, List.pairwise_cons]
      refine ⟨fun c hc => ?_, h⟩
      rcases List.mem_cons.mp hc with rfl | hc
      · exact ha
      · exact ha.trans (h.1 c hc)
    · simp only [insertCell, ha, if_false, List.pairwise_cons]
      refine ⟨fun c hc => ?_, ih h.2 fun c hc => hne c (by simp [hc])⟩
      rcases mem_insertCell.mp hc with rfl | hc
      · exact lt_of_le_of_ne (Nat.le_of_not_lt ha) hx
      · exact h.1 c hc

theorem Memory.wf_nil : Memory.wf [] := by simp [Memory.wf]

theorem Memory.wf_filter {m : Memory} (h : Memory.wf m) (c : Host.Cell → Bool) :
    Memory.wf (m.filter c) :=
  ⟨h.1.filter c, fun x hx => h.2 x (List.mem_filter.mp hx).1⟩

/-- A write inside the memory keeps the canonical form. -/
theorem Memory.wf_writeByte {m : Memory} (h : Memory.wf m) {a : Nat} (ha : a < memorySize) (b : Byte) :
    Memory.wf (writeByte m a b) := by
  have hf := Memory.wf_filter h fun x => decide (x.1 ≠ a)
  unfold writeByte
  by_cases hb : b = 0
  · simpa [hb] using hf
  · simp only [hb, if_false]
    refine ⟨pairwise_insertCell hf.1 fun c hc => by simpa using (List.mem_filter.mp hc).2, ?_⟩
    intro c hc
    rcases mem_insertCell.mp hc with rfl | hc
    · exact ⟨hb, ha⟩
    · exact hf.2 c hc

/-- A run of writes inside the memory keeps the canonical form. -/
theorem Memory.wf_writeBytes {m : Memory} (h : Memory.wf m) (cells : List Host.Cell)
    (ha : ∀ c ∈ cells, c.1 < memorySize) : Memory.wf (writeBytes m cells) := by
  induction cells generalizing m with
  | nil => exact h
  | cons c rest ih =>
    exact ih (Memory.wf_writeByte h (ha c (by simp)) c.2) fun d hd => ha d (by simp [hd])

/-- Taking granules keeps the canonical form. -/
theorem Memory.wf_zeroGranules {m : Memory} (h : Memory.wf m) (gs : List Granule) :
    Memory.wf (gs.foldl zeroGranule m) := by
  induction gs generalizing m with
  | nil => exact h
  | cons g rest ih => exact ih (Memory.wf_filter h _)

/-! ### Frame bytes -/

/-- A frame byte lies inside the memory. -/
theorem Frame.address_lt {f : Frame} {k a : Nat} (h : f.address k = some a) : a < memorySize := by
  unfold Frame.address at h
  split at h
  · next g _ =>
    cases h
    have := g.isLt
    have : k % granuleSize < granuleSize := Nat.mod_lt _ (by decide)
    simp only [memorySize, granuleSize] at *
    omega
  · cases h

theorem Frame.cells_mem {f : Frame} {k : Nat} {bs : List Byte} {c : Host.Cell} (h : c ∈ f.cells k bs) :
    ∃ i, i < bs.length ∧ f.address (k + i) = some c.1 ∧ bs[i]? = some c.2 := by
  induction bs generalizing k with
  | nil => cases h
  | cons b rest ih =>
    unfold Frame.cells at h
    split at h
    · next a ha =>
      rcases List.mem_cons.mp h with rfl | h
      · exact ⟨0, by simp, ha, by simp⟩
      · obtain ⟨i, hi, e, eb⟩ := ih h
        exact ⟨i + 1, by simpa using hi, by rw [← e]; congr 1; omega, by simpa using eb⟩
    · obtain ⟨i, hi, e, eb⟩ := ih h
      exact ⟨i + 1, by simpa using hi, by rw [← e]; congr 1; omega, by simpa using eb⟩

/-- Storing bytes into a frame keeps the canonical form. -/
theorem State.storeBytes_wf {s : State} (h : Memory.wf s.store.mem) (k : Handle) (o : Nat)
    (bs : List Byte) : Memory.wf (s.storeBytes k o bs).store.mem :=
  Memory.wf_writeBytes h _ fun _ hc =>
    let ⟨_, _, e, _⟩ := Frame.cells_mem hc
    Frame.address_lt e

/-- Taking granules from the free list keeps the canonical form. -/
theorem State.takeGranules_wf {s : State} (h : Memory.wf s.store.mem) (n : Nat) :
    Memory.wf (s.takeGranules n).store.mem := Memory.wf_zeroGranules h _

/-- The memory of the hub after device reset is canonical. -/
theorem State.reset_wf : Memory.wf State.reset.store.mem := Memory.wf_nil

end Sys2Proof.Machine
end

