-- ==== Sys2Proof/Laws/PerInstr.lean ====
section
/-! SUPPORT. One family of facts about every constructor of `Instr`: the input bytes of a row that is a station
command are a whole input of that command, and no shorter run of them is (R177, R179, R191). -/

namespace Sys2Proof.Laws.Carried

open Sys2Proof.Machine

/-- The input bytes of a well-formed row are complete, and none of their proper beginnings is. -/
def Statement (i : Instr) : Prop :=
  i.wf = true → ∀ p c input, commandInput i = some (p, c, input) →
    c.inputComplete input = true ∧ ∀ k < input.length, c.inputComplete (input.take k) = false

/-- A row that is no station command has nothing to carry. -/
theorem of_none {i : Instr} (h : commandInput i = none) : Statement i := by
  intro _ p c input he; simp [h] at he

/-- A command whose number of input bytes is fixed. -/
theorem of_fixed {i : Instr} {p : Station} {c : Command} {input : List Byte} (n : Nat)
    (h : commandInput i = some (p, c, input)) (hc : ∀ l, c.inputLength l = some n)
    (hn : input.length = n) : Statement i := by
  intro _ q d inp he
  rw [h] at he
  simp only [Option.some.injEq, Prod.mk.injEq] at he
  obtain ⟨rfl, rfl, rfl⟩ := he
  refine ⟨by simp [Command.inputComplete, hc, hn], fun k hk => ?_⟩
  have : n ≠ k := by omega
  simp [Command.inputComplete, hc, Nat.min_eq_left (Nat.le_of_lt hk), this]

theorem selectFall (p : Station) : Statement (.selectFall p) := of_none rfl
theorem selectRise (p : Station) : Statement (.selectRise p) := of_none rfl
theorem undefinedCommand (p : Station) (code : Byte) : Statement (.undefinedCommand p code) :=
  of_none rfl
theorem status (p : Station) : Statement (.status p) := of_fixed 0 rfl (fun _ => rfl) rfl
theorem getresult (p : Station) : Statement (.getresult p) := of_fixed 0 rfl (fun _ => rfl) rfl
theorem linkstatus (p : Station) : Statement (.linkstatus p) := of_fixed 0 rfl (fun _ => rfl) rfl
theorem pread (p : Station) : Statement (.pread p) := of_fixed 0 rfl (fun _ => rfl) rfl
theorem join (p : Station) : Statement (.join p) := of_fixed 0 rfl (fun _ => rfl) rfl
theorem leave (p : Station) : Statement (.leave p) := of_fixed 0 rfl (fun _ => rfl) rfl
theorem suspend (p : Station) : Statement (.suspend p) := of_fixed 0 rfl (fun _ => rfl) rfl
theorem resume (p : Station) : Statement (.resume p) := of_fixed 0 rfl (fun _ => rfl) rfl
theorem setaccept (p : Station) (acceptSet : Byte) (intake : Byte) :
    Statement (.setaccept p acceptSet intake) := of_fixed 2 rfl (fun _ => rfl) rfl
theorem claim (p : Station) (index : Byte) : Statement (.claim p index) :=
  of_fixed 1 rfl (fun _ => rfl) rfl

/-- The beginning of a list long enough has the list's first elements. -/
theorem getD_take {l : List Byte} {k n : Nat} (h : n < k) : (l.take k).getD n 0 = l.getD n 0 := by
  simp [List.getD, h]

theorem draft (p : Station) (contents : List Byte) : Statement (.draft p contents) := by
  intro hw q c input he
  simp only [commandInput, Option.some.injEq, Prod.mk.injEq] at he
  obtain ⟨rfl, rfl, rfl⟩ := he
  have hw' : Command.draft.inputComplete contents = true := hw
  refine ⟨hw', fun k hk => ?_⟩
  have hl : draftLength contents = some contents.length := by
    simpa [Command.inputComplete, Command.inputLength] using hw'
  have ht : (contents.take k).length = k := by simp; omega
  suffices h : draftLength (contents.take k) ≠ some k by
    simpa [Command.inputComplete, Command.inputLength, Nat.min_eq_left (Nat.le_of_lt hk)] using h
  unfold draftLength at hl ⊢
  rw [ht]
  by_cases h7 : k < 7
  · simp [h7]
  · have h7' : ¬ contents.length < 7 := by omega
    simp only [h7, h7', ↓reduceIte] at hl ⊢
    rw [getD_take (by omega)]
    split at hl <;> simp_all only [Option.some.injEq, ne_eq]
    any_goals omega
    · by_cases h10 : k < 10
      · simp [h10]
      · have h10' : ¬ contents.length < 10 := by omega
        simp only [h10, h10', ↓reduceIte, Option.some.injEq] at hl ⊢
        rw [getD_take (by omega)]; omega

theorem publish (p : Station) (index : Byte) : Statement (.publish p index) :=
  of_fixed 1 rfl (fun _ => rfl) rfl
theorem disable (p : Station) (index : Byte) : Statement (.disable p index) :=
  of_fixed 1 rfl (fun _ => rfl) rfl
theorem retire (p : Station) (index : Byte) : Statement (.retire p index) :=
  of_fixed 1 rfl (fun _ => rfl) rfl
theorem tread (p : Station) (index : Byte) : Statement (.tread p index) :=
  of_fixed 1 rfl (fun _ => rfl) rfl
theorem rxpeek (p : Station) (count : Byte) : Statement (.rxpeek p count) :=
  of_fixed 1 rfl (fun _ => rfl) rfl
theorem rxread (p : Station) (handle : Byte) (offset count : Half) (release : Byte) :
    Statement (.rxread p handle offset count release) := of_fixed 6 rfl (fun _ => rfl) rfl
theorem lastRequestedByte (p : Station) : Statement (.lastRequestedByte p) := of_none rfl
theorem rxrelease (p : Station) (handle : Byte) : Statement (.rxrelease p handle) :=
  of_fixed 1 rfl (fun _ => rfl) rfl
theorem txopen (p : Station) (length : Half) : Statement (.txopen p length) :=
  of_fixed 2 rfl (fun _ => rfl) rfl

theorem txwrite (p : Station) (handle : Byte) (offset : Half) (data : List Byte) :
    Statement (.txwrite p handle offset data) := by
  intro hw q c input he
  have hd : data.length < 65536 := by
    have : data.length ≤ 65535 := by simpa [Instr.wf] using hw
    omega
  simp only [commandInput, Option.some.injEq, Prod.mk.injEq] at he
  obtain ⟨rfl, rfl, rfl⟩ := he
  have h5 : ∀ tail, txwriteLength ([handle] ++ halfBytes offset ++ beBytes 2 data.length ++ tail) =
      some (5 + data.length) := by
    intro tail
    have hb : beNat (beBytes 2 data.length) = data.length := by
      rw [beNat_beBytes]; omega
    have hl : (halfBytes offset).length = 2 := by simp [halfBytes]
    have hs : (([handle] ++ halfBytes offset ++ beBytes 2 data.length ++ tail).drop 3).take 2 =
        beBytes 2 data.length := by
      rw [show [handle] ++ halfBytes offset ++ beBytes 2 data.length ++ tail =
        ([handle] ++ halfBytes offset) ++ (beBytes 2 data.length ++ tail) by simp]
      rw [List.drop_left' (by simp [hl]), List.take_left' (by simp)]
    have hlen : ¬ ([handle] ++ halfBytes offset ++ beBytes 2 data.length ++ tail).length < 5 := by
      simp [hl]; omega
    rw [txwriteLength, if_neg hlen, hs, hb]
  have hlen : ([handle] ++ halfBytes offset ++ beBytes 2 data.length ++ data).length =
      5 + data.length := by simp [halfBytes]; omega
  refine ⟨by simp only [Command.inputComplete, Command.inputLength, h5, hlen, beq_self_eq_true],
    fun k hk => ?_⟩
  rw [hlen] at hk
  have ht : (([handle] ++ halfBytes offset ++ beBytes 2 data.length ++ data).take k).length = k := by
    rw [List.length_take, hlen]; omega
  suffices h : txwriteLength (([handle] ++ halfBytes offset ++ beBytes 2 data.length ++ data).take k) ≠
      some k by
    simp only [Command.inputComplete, Command.inputLength, ht]
    simpa using h
  by_cases h : k < 5
  · rw [txwriteLength, if_pos (by omega)]; simp
  · have : ([handle] ++ halfBytes offset ++ beBytes 2 data.length ++ data).take k =
        [handle] ++ halfBytes offset ++ beBytes 2 data.length ++ data.take (k - 5) := by
      rw [List.take_append, List.take_of_length_le (by simp [halfBytes]; omega)]
      simp [halfBytes]
    rw [this, h5]; simp; omega

theorem txpost (p : Station) (handle : Byte) (flags : Byte) : Statement (.txpost p handle flags) :=
  of_fixed 2 rfl (fun _ => rfl) rfl
theorem txcancel (p : Station) (handle : Byte) : Statement (.txcancel p handle) :=
  of_fixed 1 rfl (fun _ => rfl) rfl
theorem txdone (p : Station) : Statement (.txdone p) := of_fixed 0 rfl (fun _ => rfl) rfl
theorem propose (p : Station) (record : PartitionRecord) : Statement (.propose p record) :=
  of_fixed 25 rfl (fun _ => rfl) rfl
theorem endorse (p : Station) (number : Half) : Statement (.endorse p number) :=
  of_fixed 2 rfl (fun _ => rfl) rfl
theorem object (p : Station) (number : Half) : Statement (.object p number) :=
  of_fixed 2 rfl (fun _ => rfl) rfl
theorem events (p : Station) : Statement (.events p) := of_fixed 0 rfl (fun _ => rfl) rfl
theorem setmask (p : Station) (mask : Half) : Statement (.setmask p mask) :=
  of_fixed 2 rfl (fun _ => rfl) rfl
theorem snapshot (p : Station) (option : Byte) : Statement (.snapshot p option) :=
  of_fixed 1 rfl (fun _ => rfl) rfl
theorem presentFall (p : Station) : Statement (.presentFall p) := of_none rfl
theorem presentRise (p : Station) : Statement (.presentRise p) := of_none rfl
theorem deviceReset : Statement .deviceReset := of_none rfl
theorem phyInputChange (input : PhyInput) (level : Bool) : Statement (.phyInputChange input level) :=
  of_none rfl
theorem speedChange (level : Bool) : Statement (.speedChange level) := of_none rfl
theorem linkInputCompare : Statement .linkInputCompare := of_none rfl
theorem frameStart : Statement .frameStart := of_none rfl
theorem byteArrival (b : Byte) : Statement (.byteArrival b) := of_none rfl
theorem frameEnd (e : LinkEnd) : Statement (.frameEnd e) := of_none rfl
theorem transmissionComplete : Statement .transmissionComplete := of_none rfl
theorem flowControlComplete : Statement .flowControlComplete := of_none rfl
theorem pauseTimerExpiry : Statement .pauseTimerExpiry := of_none rfl
theorem refreshTimerExpiry : Statement .refreshTimerExpiry := of_none rfl
theorem holdLimitExpiry (p : Station) : Statement (.holdLimitExpiry p) := of_none rfl
theorem proposalExpiry : Statement .proposalExpiry := of_none rfl
theorem completedByte (p : Station) (mosi : Byte) : Statement (.completedByte p mosi) := of_none rfl

end Sys2Proof.Laws.Carried
end

