-- ==== Sys2Proof/Laws/Wire.lean ====
section
/-! SUPPORT. What one bit of a check sequence does to the check register. -/

namespace Sys2Proof.Machine

/-- A bit of the complement of `r`, highest first, takes the register's own bit of `r` out: after `k` such
bits the register is `r`, shifted, and a part that does not depend on `r`. -/
theorem crcBit_shift (r c : Word) (k : Nat) (hk : k < 32) :
    crcBit (r <<< k ^^^ c) (!r.getLsbD (31 - k)) = r <<< (k + 1) ^^^ crcBit c true := by
  have top : (r <<< k ^^^ c).getLsbD 31 = (r.getLsbD (31 - k) ^^ c.getLsbD 31) := by
    have : ¬ 31 < k := by omega
    simp only [BitVec.getLsbD_xor, BitVec.getLsbD_shiftLeft]; simp [this]
  unfold crcBit
  rw [top, BitVec.shiftLeft_xor_distrib, ← BitVec.shiftLeft_add]
  cases r.getLsbD (31 - k) <;> cases c.getLsbD 31 <;> simp [BitVec.xor_assoc]

end Sys2Proof.Machine
end

