-- ==== Sys2Proof/Tests/Slice0.lean ====
section
/-! SUPPORT. The model's own tests: ill-formed terms, single steps with the figures of the manual's tables and
worked examples, and for every obligation with hypotheses a state and operands that meet them. -/

namespace Sys2Proof.Tests

open Sys2Proof Sys2Proof.Machine

set_option Elab.async false

/-! ### States -/

/-- A port whose command byte is still to come. -/
def opened : Port := { Port.reset with phase := .command }

/-- The hub with every station present and ACTIVE, every port open, and the link UP at 100 Mb/s. -/
def hub : State :=
  { State.reset with
    pins := { present := Per.const true, linkup := true, fullDuplex := true, speed100 := true },
    sessions := Per.const { state := .active, number := 1, accept := 0, defaultIntake := .none },
    mac := { Mac.reset with link := .up .m100, comparePending := false },
    ports := Per.const opened }

/-- The hub with station 0 in a session state. -/
def hubIn (v : SessionState) : State :=
  { hub with sessions := hub.sessions.set .s0 { hub.session .s0 with state := v } }

/-- The hub with another Link MAC. -/
def hubMac (v : Mac) : State := { hub with mac := v }

/-- The hub with the port of station 0 replaced. -/
def hubPort (v : Port) : State := { hub with ports := hub.ports.set .s0 v }

/-- The hub with frame 0 replaced. -/
def hubFrame (f : Frame) : State := hub.setFrame 0 f

/-- A frame of one granule in a state, with holds. -/
def frameOf (state : FrameState) (length : Nat) (holds : Holds) : Frame :=
  { state := state, origin := some (.station .s0), length := length, chain := [0], holds := holds,
    result := none, truncated := false, tooLong := false }

/-- A build of station 0. -/
def built (length : Nat) : Frame := frameOf .building length { Holds.none with build := setOf .s0 }

/-- A frame that the receiver stores. -/
def filled (length : Nat) : Frame :=
  { frameOf .filling length { Holds.none with fill := true } with origin := some .link }

/-- The hub with frame 0 being stored. -/
def storing (f : Frame) : State :=
  { hubFrame f with mac := { hub.mac with receiver := .storing 0 } }

/-- The hub with frame 0 in the intake queue of station 0. -/
def queued : State :=
  (hubFrame (frameOf .settled 60 { Holds.none with intake := setOf .s0 })).setIntake .s0
    [{ handle := 0, admitted := 0, wake := false }]

/-- A post of frame 0. -/
def post (started : Bool) : PostEntry :=
  { handle := 0, number := 1, deliveries := 0, wireLength := 60, started := started }

/-- The hub with frame 0 in the post queue of station 0. -/
def posted (started : Bool) : State :=
  (hubFrame (frameOf .settled 60 { Holds.none with post := setOf .s0, wire := started })).setPosts .s0
    { queue := [post started], completions := [], number := 1 }

/-- The hub with frame 0 on the wire. -/
def sendingPost : State :=
  { posted true with mac := { hub.mac with tx := .station .s0 0 500 } }

/-- The hub with an entry of station 0. -/
def owning (v : EntryState) : State :=
  hub.setEntry 63 { state := v, owner := some .s0, contents := none, hits := 0 }

/-- A valid record. -/
def record : PartitionRecord := { defaultRecord with holdLimit := 10 }

/-- The hub with a proposal of station 1 open, for stations 0 and 2. -/
def proposed (endorsed : StationSet) : State :=
  { hub with partition := { hub.partition with
      counter := 7,
      proposal := some
        { number := 7, proposer := .s1, record := record, required := 5, endorsed := endorsed,
          expiry := 20000000 } } }

/-- Contents that deliver every frame to station 0. -/
def toAll : Contents :=
  { precedence := 0, scope := .both, originSet := none, targets := 1, action := .deliver,
    terminal := false, wake := false, kind := .all }

/-- The hub with a draft of station 0. -/
def drafted (c : Contents) : State := (owning .idle).setDraft .s0 (some c)

/-- The result and response of a command on the port of a station. -/
def reply (o : Host.Outcome State Fault Refusal) (p : Station) : Option (Option Result × List Byte) :=
  match o with
  | .next t => some ((t.ports.get p).result, (t.ports.get p).response)
  | _ => none

/-- One thing seen in the next state. -/
def seen {α : Type} (o : Host.Outcome State Fault Refusal) (f : State → α) : Option α :=
  match o with
  | .next t => some (f t)
  | _ => none

/-! ### Well-formedness (log 7) -/

theorem test_wf_undefinedCommand : (Instr.undefinedCommand .s0 0x10).wf = false ∧
    (Instr.undefinedCommand .s0 0x77).wf = true := by decide
theorem test_wf_draft_short : (Instr.draft .s0 [0, 0, 0, 0, 0, 0]).wf = false ∧
    (Instr.draft .s0 [0, 0, 0, 0, 0, 0, 4]).wf = true := by decide
theorem test_wf_draft_long : (Instr.draft .s0 [0, 0, 0, 0, 0, 0, 4, 0]).wf = false := by decide
theorem test_wf_txwrite : ∀ data : List Byte, data.length = 65536 →
    (Instr.txwrite .s0 0 0 data).wf = false := by
  intro data h; simp [Instr.wf, h]
theorem test_illFormed_refused :
    exec (.draft .s0 []) hub = .refused .illFormed ∧
    exec (.undefinedCommand .s0 0x10) hub = .refused .illFormed := ⟨rfl, rfl⟩

/-! ### Single steps with the manual's figures -/

theorem test_select_fall_summary :
    seen (exec (.selectFall .s0) State.reset) (fun t => (t.ports.get .s0).summary) = some 0x01 := by
  decide +kernel
theorem test_join_number : reply (exec (.join .s0) { hubIn .offline with
    sessions := Per.const { state := .offline, number := 255, accept := 0, defaultIntake := .none } })
    .s0 = some (some .ok, [1]) := by decide +kernel
theorem test_join_absent : reply (exec (.join .s0) State.reset) .s0 = some (some .absent, [0]) := by
  decide +kernel
theorem test_status_is_taken_offline :
    (reply (exec (.status .s3) State.reset) .s3).map (fun r => r.2.length) = some 16 := by
  decide +kernel
theorem test_pread_length :
    (reply (exec (.pread .s0) State.reset) .s0).map (fun r => r.2.length) = some 62 := by
  decide +kernel
theorem test_snapshot_length :
    (reply (exec (.snapshot .s0 0) State.reset) .s0).map (fun r => r.2.length) = some 100 := by
  decide +kernel
theorem test_claim_denied_order :
    reply (exec (.claim .s0 0) { owning .idle with partition := { hub.partition with
      installed := { defaultRecord with
        share := Per.const { quota := 128, allowance := 1, weight := 4 } } } }) .s0 =
      some (some .denied, [0]) := by decide +kernel
theorem test_txopen_takes_head :
    seen (exec (.txopen .s0 129) hub) (fun t => ((t.frame 0).chain, t.store.freeList.take 1)) =
      some ([0, 1], [2]) := by decide +kernel
theorem test_txpost_goes_to_the_wire :
    seen (exec (.txpost .s0 0 1) (hubFrame (built 14))) (fun t => (t.mac.tx, (t.frame 0).holds)) =
      some (.station .s0 0 672, { Holds.none with post := setOf .s0, wire := true }) := by
  decide +kernel
theorem test_buckets :
    bucketOf [0x01, 0x00, 0x5E, 0x00, 0x00, 0xFB] = 36 ∧
    bucketOf [0x33, 0x33, 0x00, 0x00, 0x00, 0x01] = 1 := by decide
theorem test_check_sequence :
    checkSequence [0x31, 0x32, 0x33, 0x34, 0x35, 0x36, 0x37, 0x38, 0x39] =
      (0xCBF43926 : Word).reverse := by decide +kernel
theorem test_frame_of_four_bytes_is_bad_check_sequence :
    seen (exec (.frameEnd (.checked (~~~ crcPreset) false)) (storing { filled 0 with chain := [] }))
      (fun t => (t.linkCounters.fcsErrors, t.linkCounters.runts)) = some (1, 0) := by decide +kernel
theorem test_frame_of_five_bytes_is_a_runt :
    seen (exec (.frameEnd (.checked (~~~ crcPreset) false)) (storing (filled 1)))
      (fun t => (t.linkCounters.fcsErrors, t.linkCounters.runts)) = some (0, 1) := by decide +kernel
theorem test_bits_of_draft_bytes :
    contentsOfBytes [0, 2, 0, 0, 0, 1, 4] = some toAll ∧ toAll.bytes = [0, 2, 0, 0, 0, 1, 4] := by
  decide

/-- The scheduler of section 6.13 after request 5. -/
def afterFive : Scheduler :=
  { pointer := .s0, deficit := ⟨958, 512, 0, 0⟩, credited := ⟨true, false, false, false⟩ }

theorem test_drr_request_1 :
    examine ⟨4, 1, 8, 4⟩ ⟨some 1514, some 1000, some 100, none⟩ examinationBound 0 Scheduler.reset =
      (some .s2, ⟨.s2, ⟨1024, 256, 1948, 0⟩, ⟨false, false, true, false⟩⟩) := by decide
theorem test_drr_request_6 :
    examine ⟨4, 1, 8, 4⟩ ⟨none, some 1000, none, none⟩ examinationBound 0 afterFive =
      (some .s1, ⟨.s1, ⟨0, 24, 0, 0⟩, ⟨false, true, false, false⟩⟩) := by decide
theorem test_decode_gives_none : decodeTableWord 8 0x10 = none := rfl

/-! ### Witnesses: the hypotheses of each obligation are met -/

theorem test_meets_StepOnAnEmptyQueue : State.reset.pending = [] ∧
    State.reset.dueEvents = [.linkInputCompare] ∧ hub.dueEvents = [] ∧
    2 ≤ (hubMac { hub.mac with comparePending := true, pauseUntil := some 0 }).dueEvents.length := by
  decide +kernel

theorem test_meets_EveryCommandAnswers : (Instr.join .s0).wf = true ∧ (Instr.draft .s0 []).wf = false := by
  decide

theorem test_meets_SelectFallCapturesTheSummary :
    (State.reset.ports.get .s0).phase = .idle ∧ (hub.ports.get .s0).phase ≠ .idle := by decide

/-- A stream of the one byte of frame 0 that is asked for. -/
def stream (release : Bool) (offset : Nat) : ReadStream :=
  { handle := 0, offset := offset, count := 1, release := release, sent := 0 }

/-- The hub with an RXREAD of frame 0 under way on the port of station 0. -/
def reading (release : Bool) (offset : Nat) : State :=
  { queued.setFrame 0 (frameOf .settled 60 { Holds.none with intake := setOf .s0, read := setOf .s0 }) with
    ports := hub.ports.set .s0 { opened with phase := .output, reading := some (stream release offset) } }

theorem test_meets_SelectRiseEndsTheTransaction : (State.reset.ports.get .s0).phase = .idle ∧
    (hub.ports.get .s0).phase = .command ∧
    ((hubPort { opened with phase := .discard }).ports.get .s0).phase = .discard ∧
    ((hubPort { opened with phase := .discard }).ports.get .s0).reading = none ∧
    ((reading true 59).ports.get .s0).phase = .output ∧
    ((reading true 59).ports.get .s0).reading = some (stream true 59) ∧
    inSet ((reading true 59).frame 0).holds.read .s0 = true := by decide +kernel

theorem test_meets_UndefinedCommandIsBadarg : (∀ c : Command, c.code ≠ 0x77) ∧
    (hub.ports.get .s0).phase = .command := ⟨by intro c; cases c <;> decide, by decide⟩

theorem test_meets_RefusalsChangeNothing :
    (commandInput (.suspend .s0) = some (.s0, .suspend, []) ∧ (Instr.suspend .s0).wf = true ∧
      Carries (hubIn .suspended) .s0 .suspend [] ∧
      ((hubIn .suspended).session .s0).state ∉ sessionsFor .suspend) ∧
    ∃ t, exec (.rxpeek .s0 1) hub = .next t ∧ commandInput (.rxpeek .s0 1) = some (.s0, .rxpeek, [1]) ∧
      Carries hub .s0 .rxpeek [1] ∧ (t.ports.get .s0).result ≠ some .ok :=
  ⟨by decide +kernel, _, rfl, by decide +kernel, by decide +kernel, by decide +kernel⟩

theorem test_meets_ARowStandsForItsTransaction :
    commandInput (.join .s0) = some (.s0, .join, []) ∧ ¬ Carries State.reset .s0 .join [] ∧
    ¬ Carries (hubPort { opened with phase := .input, code := some 0x20, input := [7] }) .s0 .claim [8] ∧
    (State.reset.ports.get .s0).phase ≠ .command := by decide +kernel

theorem test_meets_BytesCarryTheCommand :
    commandInput (.txwrite .s0 0 0 [1]) = some (.s0, .txwrite, [0, 0, 0, 0, 1, 1]) ∧
    (Instr.txwrite .s0 0 0 [1]).wf = true ∧ (hub.ports.get .s0).phase = .command := by decide +kernel

/-- The phases and data of a port that a completed byte meets. -/
def phased (phase : Phase) (response : List Byte) : Port :=
  { opened with phase := phase, result := some .ok, response := response }

theorem test_meets_CompletedBytesByPhase_command : (hub.ports.get .s0).phase = .command ∧
    (∀ c : Command, c.code ≠ 0x77) ∧ commandInput (.getresult .s0) = some (.s0, .getresult, []) ∧
    (Instr.getresult .s0).wf = true ∧ Command.claim.inputComplete [] = false :=
  ⟨by decide, by intro c; cases c <;> decide, by decide⟩

/-- A port that waits for the input of a command, with some bytes of it received. -/
def awaiting (c : Command) (input : List Byte) : Port :=
  { opened with phase := .input, code := some c.code, input := input }

theorem test_meets_CompletedBytesByPhase_input :
    ((hubPort (awaiting .txpost [5])).ports.get .s0).phase = .input ∧
    ((hubPort (awaiting .txpost [5])).ports.get .s0).code = some Command.txpost.code ∧
    commandInput (.txpost .s0 5 0) =
      some (.s0, .txpost, ((hubPort (awaiting .txpost [5])).ports.get .s0).input ++ [0]) ∧
    (Instr.txpost .s0 5 0).wf = true ∧
    Command.txpost.inputComplete (((hubPort (awaiting .txpost [])).ports.get .s0).input ++ [5]) =
      false := by decide +kernel

theorem test_meets_CompletedBytesByPhase : (State.reset.ports.get .s0).phase = .idle ∧
    ((hubPort (phased .turnaround [1])).ports.get .s0).phase = .turnaround ∧
    ((hubPort (phased .result [1])).ports.get .s0).result = some .ok ∧
    ((hubPort (phased .output [1])).ports.get .s0).response = 1 :: [] ∧
    ((hubPort (phased .output [1])).ports.get .s0).reading = none ∧
    ((reading true 59).ports.get .s0).reading = some (stream true 59) ∧
    (stream true 59).sent + 1 = (stream true 59).count ∧
    ((hubPort { opened with phase := .output, reading := some { stream true 59 with count := 2 } }).ports.get
      .s0).reading = some { stream true 59 with count := 2 } ∧
    (stream true 59).sent + 1 < 2 ∧
    ((hubPort (phased .discard [])).ports.get .s0).phase = .discard := by decide +kernel

theorem test_meets_WholeHubReads : Carries hub .s0 .status [] ∧ Carries hub .s0 .getresult [] ∧
    Carries hub .s0 .linkstatus [] ∧ Carries hub .s0 .pread [] := by decide

theorem test_meets_JoinStartsASession : Carries (hubIn .offline) .s0 .join [] ∧
    ((hubIn .offline).session .s0).state = .offline ∧
    (hubIn .offline).pins.present.get .s0 = true ∧
    ({ hubIn .offline with pins := State.reset.pins } : State).pins.present.get .s0 = false := by decide

theorem test_meets_LeaveTearsDown : Carries hub .s0 .leave [] ∧ (hub.session .s0).state ≠ .offline := by
  decide

theorem test_meets_PresentLine : (hub.session .s0).state ≠ .offline ∧
    ((hubIn .offline).session .s0).state = .offline ∧ (hub.ports.get .s0).phase ≠ .idle ∧
    ((hubPort Port.reset).ports.get .s0).phase = .idle := by decide

theorem test_meets_SuspendPutsToSleep : Carries hub .s0 .suspend [] ∧
    (hub.session .s0).state = .active ∧ hub.partition.proposal = none ∧
    (∃ o, (proposed 0).partition.proposal = some o ∧ o.proposer = .s1) ∧
    (∃ o, (proposed 0).partition.proposal = some o ∧ o.proposer ≠ .s0 ∧ inSet o.required .s0 = true ∧
      eraseStation o.endorsed .s0 ≠ eraseStation o.required .s0) ∧
    ∃ o, (proposed 4).partition.proposal = some o ∧ o.proposer ≠ .s0 ∧ inSet o.required .s0 = true ∧
      eraseStation o.endorsed .s0 = eraseStation o.required .s0 :=
  ⟨by decide, by decide, by decide, ⟨_, rfl, by decide⟩, ⟨_, rfl, by decide⟩, ⟨_, rfl, by decide⟩⟩

theorem test_meets_ResumeAndSetaccept : Carries (hubIn .suspended) .s0 .resume [] ∧
    ((hubIn .suspended).session .s0).state = .suspended ∧ Carries hub .s0 .setaccept [14, 2] ∧
    (hub.session .s0).state = .active ∧ (2 : Byte) = intakeByte .all ∧ (14 : Byte).toNat < 16 ∧
    inSet ((14 : Byte).setWidth 4) .s0 = false ∧ 16 ≤ (16 : Byte).toNat ∧
    inSet ((15 : Byte).setWidth 4) .s0 = true := by decide

theorem test_meets_ResumeAndSetaccept_undefined : ∀ v : DefaultIntake, (3 : Byte) ≠ intakeByte v := by
  intro v; cases v <;> decide

/-- The hub with an allowance for station 0. -/
def allowing (n : Byte) (s : State) : State :=
  { s with partition := { s.partition with installed := { s.partition.installed with
      share := s.partition.installed.share.set .s0 { quota := 128, allowance := n, weight := 4 } } } }

/-- The hub with every entry owned by station 1. -/
def claimed : State :=
  { hub with table := { hub.table with entries := Table.const 64 (Entry.claimed .s1) } }

theorem test_meets_ClaimTakesAFreeEntry : Carries hub .s0 .claim [63] ∧
    (hub.session .s0).state = .active ∧ (64 ≤ (64 : Byte).toNat ∧ (64 : Byte) ≠ 0xFF) ∧
    ((63 : Byte).toNat < 64 ∧ ((allowing 1 (owning .idle)).partition.installed.share.get
      .s0).allowance.toNat ≤ (allowing 1 (owning .idle)).ownedCount .s0) ∧
    ((owning .idle).ownedCount .s0 < ((owning .idle).partition.installed.share.get .s0).allowance.toNat ∧
      ((owning .idle).entry 63).state ≠ .free) ∧
    (hub.entry 63).state = .free ∧ (∀ j < (0 : EntryIndex), (hub.entry j).state ≠ .free) ∧
    ∀ i, (claimed.entry i).state ≠ .free := by decide +kernel

theorem test_meets_DraftReplacesTheDraft : Command.draft.inputComplete [0, 2, 0, 0, 0, 1, 4] = true ∧
    Carries hub .s0 .draft [0, 2, 0, 0, 0, 1, 4] ∧ (hub.session .s0).state = .active ∧
    contentsOfBytes [0, 2, 0, 0, 0, 1, 4] = some toAll ∧
    Command.draft.inputComplete [0, 2, 0, 8, 0, 1, 4] = true ∧
    contentsOfBytes [0, 2, 0, 8, 0, 1, 4] = none := by decide

theorem test_meets_PublishActivatesAnEntry : Carries (drafted toAll) .s0 .publish [63] ∧
    ((drafted toAll).session .s0).state = .active ∧ 64 ≤ (64 : Byte).toNat ∧
    (63 : Byte).toNat = (63 : EntryIndex).val ∧ (hub.entry 63).state = .free ∧
    ((drafted toAll).entry 63).owner ≠ some .s1 ∧
    ((drafted toAll).entry 63).state ≠ .free ∧ ((drafted toAll).entry 63).owner = some .s0 ∧
    (drafted toAll).table.drafts.get .s0 = some toAll ∧ toAll.action ≠ .contain ∧
    toAll.kind = .all ∧ toAll.originSet = none ∧ (owning .idle).table.drafts.get .s0 = none ∧
    (drafted { toAll with action := .contain }).table.drafts.get .s0 =
      some { toAll with action := .contain } := by decide +kernel

theorem test_meets_DisableAndRetire : ((owning .active).session .s0).state = .active ∧
    Carries (owning .active) .s0 .disable [63] ∧ Carries (owning .active) .s0 .retire [63] ∧
    64 ≤ (64 : Byte).toNat ∧ (63 : Byte).toNat = (63 : EntryIndex).val ∧
    ((owning .active).entry 62).state = .free ∧ ((owning .active).entry 63).owner ≠ some .s1 ∧
    ((owning .idle).entry 63).state = .idle ∧ ((owning .active).entry 63).state = .active ∧
    ((owning .active).entry 63).owner = some .s0 := by decide +kernel

theorem test_meets_TreadReturnsAnEntry : Carries hub .s0 .tread [63] ∧
    (hub.session .s0).state = .active ∧ 64 ≤ (64 : Byte).toNat ∧
    (63 : Byte).toNat = (63 : EntryIndex).val := by decide

theorem test_meets_ContentsAndRecordsTravelUnchanged : toAll.inRange = true ∧
    { toAll with kind := .pattern 0 [1] [1] }.inRange = true := by decide

theorem test_meets_KindsMatch : [(0xFF : Byte)].length = [(0x0F : Byte)].length := rfl

theorem test_meets_DeliverAddsItsTargets : toAll.action = .deliver ∧
    ∀ q, inSet (hub.effectiveTargets .link .s1 1) q = true → inSet (1 : StationSet) q = true :=
  ⟨rfl, by intro q; cases q <;> decide⟩

theorem test_meets_DiscardAndContainAct : { toAll with action := .discard }.action = .discard ∧
    { toAll with action := .contain }.action = .contain := by decide

/-- The hub with one ACTIVE entry of station 0. -/
def steering (c : Contents) : State :=
  hub.setEntry 63 { state := .active, owner := some .s0, contents := some c, hits := 0 }

theorem test_meets_ClassificationFollowsTheWalk :
    ((steering toAll).entry 62).applying .link = none ∧
    ((steering toAll).entry 63).applying .link = some toAll ∧
    ((steering toAll).entry 63).owner = some .s0 ∧ (steering toAll).kindMatches 0 toAll.kind = true ∧
    toAll.terminal = false ∧
    (steering { toAll with terminal := true }).kindMatches 0 toAll.kind = true ∧
    (steering { toAll with kind := .group 0 }).kindMatches 0 (.group 0) = false ∧
    inSet ((steering { toAll with action := .discard }).walkFrame 0 .link).excluded .s0 = true := by
  decide +kernel

/-- The hub with every frame record taken. -/
def full : State :=
  { hub with store := { hub.store with
      frames := Table.const 128 (frameOf .settled 60 { Holds.none with intake := setOf .s0 }) } }

/-- A receiver's frame at its limit, with the granules for it. -/
def longest : Frame := { filled 1514 with chain := [0, 1, 2, 3, 4, 5, 6, 7, 8, 9, 10, 11] }

theorem test_meets_FramesAreStored : State.reset.mac.link = .down ∧
    (hub.mac.link ≠ .down ∧ hub.mac.receiver = .idle ∧ (hub.frame 0).state = .free ∧
      ∀ k < (0 : Handle), (hub.frame k).state ≠ .free) ∧
    (∀ h, (full.frame h).state ≠ .free) ∧
    (storing (filled 0)).mac.receiver = .storing 0 ∧
    ((storing { filled 128 with truncated := true }).frame 0).truncated = true ∧
    ((storing longest).frame 0).truncated = false ∧ ((storing longest).frame 0).tooLong = false ∧
    1514 ≤ ((storing longest).frame 0).length ∧
    (((storing (filled 128)).frame 0).length < 1514 ∧ ((storing (filled 128)).frame 0).length % 128 = 0 ∧
      (storing (filled 128)).partition.installed.reserve.toNat <
        (storing (filled 128)).store.freeList.length ∧
      ((storing (filled 128)).frame 0).chain.length = ((storing (filled 128)).frame 0).length / 128) ∧
    ((storing (filled 127)).frame 0).length % 128 ≠ 0 ∧
    ((storing (filled 127)).frame 0).chain[((storing (filled 127)).frame 0).length / 128]? = some 0 := by
  decide +kernel

theorem test_meets_FramesAreStored_reserve :
    ({ storing (filled 128) with store := { (storing (filled 128)).store with
        freeList := (List.finRange 512).take 24 } } : State).store.freeList.length ≤
      (storing (filled 128)).partition.installed.reserve.toNat := by decide +kernel

/-- A flow-control frame that the receiver has stored, with a quanta value. -/
def flowStored (q : Half) : State := (storing (filled 60)).storeBytes 0 0 (flowFrame q)

/-- The same with quanta 0 and a pause in force. -/
def flowPaused : State :=
  { flowStored 0 with mac := { (flowStored 0).mac with pauseUntil := some 9 } }

theorem test_meets_FrameEndChecks : hub.mac.receiver = .idle ∧
    (hubMac { hub.mac with receiver := .skipping }).mac.receiver = .skipping ∧
    (storing (filled 60)).mac.receiver = .storing 0 ∧
    ((storing (filled 60)).frame 0).holds = { Holds.none with fill := true } ∧
    (0 : Word) ≠ ~~~ { hub.mac with rxCrc := 0 }.rxCrc ∧
    ((storing { filled 60 with truncated := true }).frame 0).truncated = true ∧
    ((storing { filled 60 with tooLong := true }).frame 0).tooLong = true ∧
    ((storing (filled 0)).frame 0).length = 0 ∧ ((storing (filled 0)).frame 0).truncated = false ∧
    ((storing (filled 0)).frame 0).tooLong = false ∧ ((storing (filled 1)).frame 0).length ≠ 0 ∧
    ((storing (filled 59)).frame 0).length < 60 ∧ 60 ≤ ((storing (filled 60)).frame 0).length := by
  decide +kernel

theorem test_meets_FrameEndChecks_flow : ((flowStored 3).frame 0).truncated = false ∧
    ((flowStored 3).frame 0).tooLong = false ∧ 60 ≤ ((flowStored 3).frame 0).length ∧
    (flowStored 3).bytesAt 0 0 6 = [0x01, 0x80, 0xC2, 0x00, 0x00, 0x01] ∧
    (flowStored 3).bytesAt 0 12 4 = [0x88, 0x08, 0x00, 0x01] ∧ (flowStored 3).mac.link = .up .m100 ∧
    beNat ((flowStored 3).bytesAt 0 16 2) ≠ 0 ∧ beNat ((flowStored 0).bytesAt 0 16 2) = 0 ∧
    (flowStored 0).mac.pauseUntil = none ∧ flowPaused.mac.pauseUntil ≠ none ∧
    beNat (flowPaused.bytesAt 0 16 2) = 0 ∧
    ∀ x ∈ (flowPaused.posts.get .s0).queue, x.handle ≠ 0 := by decide +kernel

theorem test_meets_GoodFramesAreAdmitted : (storing (filled 60)).mac.receiver = .storing 0 ∧
    ((storing (filled 60)).frame 0).holds = { Holds.none with fill := true } ∧
    ((storing (filled 60)).frame 0).truncated = false ∧ ((storing (filled 60)).frame 0).tooLong = false ∧
    60 ≤ ((storing (filled 60)).frame 0).length ∧
    ¬ ((storing (filled 60)).bytesAt 0 0 6 = [0x01, 0x80, 0xC2, 0x00, 0x00, 0x01] ∧
      (storing (filled 60)).bytesAt 0 12 4 = [0x88, 0x08, 0x00, 0x01]) := by decide +kernel

theorem test_meets_RxpeekDescribesTheQueue : Carries queued .s0 .rxpeek [32] ∧
    (queued.session .s0).state = .active ∧ (0 : Byte).toNat = 0 ∧ 32 < (33 : Byte).toNat ∧
    1 ≤ (1 : Byte).toNat ∧ (32 : Byte).toNat ≤ 32 ∧ hub.intake.get .s0 = [] ∧
    queued.intake.get .s0 ≠ [] := by decide +kernel

theorem test_meets_RxreadStartsAStream :
    Carries queued .s0 .rxread ([0] ++ halfBytes 59 ++ halfBytes 1 ++ [1]) ∧
    (queued.session .s0).state = .active ∧ (∀ e ∈ queued.intake.get .s0, e.handle.val ≠ (1 : Byte).toNat) ∧
    (0 : Byte).toNat = (0 : Handle).val ∧ (∃ e ∈ queued.intake.get .s0, e.handle = 0) ∧
    1513 < (1514 : Half).toNat ∧ (queued.frame 0).length < (60 : Half).toNat + (1 : Half).toNat ∧
    (59 : Half).toNat ≤ 1513 ∧ 1 ≤ (1 : Half).toNat ∧ (1 : Byte).toNat ≤ 1 ∧
    (59 : Half).toNat + (1 : Half).toNat ≤ (queued.frame 0).length ∧
    (queued.frame 0).state = .settled := by decide +kernel

theorem test_meets_EntriesAreReleased : (hub.ports.get .s0).streaming = none ∧
    ((reading true 59).ports.get .s0).streaming = some (stream true 59) ∧
    (stream false 59).release = false ∧
    (stream true 58).offset + (stream true 58).count ≠ ((reading true 58).frame 0).length ∧
    (stream true 59).offset + (stream true 59).count = ((reading true 59).frame 0).length ∧
    (∃ e ∈ (reading true 59).intake.get .s0, e.handle = 0) ∧
    inSet ((reading true 59).frame 0).holds.read .s0 = true ∧
    Carries queued .s0 .rxrelease [0] ∧ (queued.session .s0).state = .active ∧
    (∀ e ∈ queued.intake.get .s0, e.handle.val ≠ (1 : Byte).toNat) ∧
    (∃ e ∈ queued.intake.get .s0, e.handle = 0) ∧
    inSet (queued.frame 0).holds.intake .s0 = true := by decide +kernel

theorem test_meets_HoldLimitExpiryDropsTheFront : hub.partition.installed.holdLimit = 0 ∧
    ({ queued with partition := { queued.partition with installed := record } } :
      State).partition.installed.holdLimit ≠ 0 ∧
    queued.intake.get .s0 = { handle := 0, admitted := 0, wake := false } :: [] := by decide +kernel

/-- The hub with a quota for station 0. -/
def quotaOf (n : Half) : State :=
  { hub with partition := { hub.partition with installed := { hub.partition.installed with
      share := hub.partition.installed.share.set .s0 { quota := n, allowance := 16, weight := 4 } } } }

theorem test_meets_TxopenOpensABuild : Carries hub .s0 .txopen (halfBytes 1514) ∧
    (hub.session .s0).state = .active ∧ (13 : Half).toNat < 14 ∧ 1514 < (1515 : Half).toNat ∧
    14 ≤ (14 : Half).toNat ∧ (1514 : Half).toNat ≤ 1514 ∧
    ((quotaOf 11).partition.installed.share.get .s0).quota.toNat < (quotaOf 11).charge .s0 + 12 ∧
    (quotaOf 12).charge .s0 + 12 ≤ ((quotaOf 12).partition.installed.share.get .s0).quota.toNat ∧
    hub.transmitUse .s0 < 8 ∧ 12 ≤ hub.store.freeList.length ∧ (hub.frame 0).state = .free ∧
    (∀ k < (0 : Handle), (hub.frame k).state ≠ .free) ∧ ∀ h, (full.frame h).state ≠ .free := by
  decide +kernel

theorem test_meets_TxwriteWritesItsSpan : [(7 : Byte)].length ≤ 65535 ∧
    Carries (hubFrame (built 60)) .s0 .txwrite ([0] ++ halfBytes 59 ++ beBytes 2 1 ++ [7]) ∧
    ((hubFrame (built 60)).session .s0).state = .active ∧
    (hubFrame (built 60)).inBuildSet .s1 0 = false ∧ (0 : Byte).toNat = (0 : Handle).val ∧
    (hubFrame (built 60)).inBuildSet .s0 0 = true ∧ 1513 < (1514 : Half).toNat ∧
    ((hubFrame (built 60)).frame 0).length < (60 : Half).toNat + 1 ∧
    (59 : Half).toNat + 1 ≤ ((hubFrame (built 60)).frame 0).length ∧
    ((hubFrame (built 60)).frame 0).chain.Nodup ∧
    ((hubFrame (built 60)).frame 0).length ≤ 128 * ((hubFrame (built 60)).frame 0).chain.length := by
  decide +kernel

theorem test_meets_TxpostChecks : Carries (hubFrame (built 60)) .s0 .txpost [0, 2] ∧
    ((hubIn .suspended).session .s0).state ≠ .active ∧
    ((hubFrame (built 60)).session .s0).state = .active ∧
    (∀ h : Handle, (1 : Byte).toNat = h.val → (hubFrame (built 60)).inBuildSet .s0 h = false) ∧
    (hubFrame (built 60)).inBuildSet .s0 0 = true ∧ 2 < (3 : Byte).toNat ∧ (2 : Byte).toNat ≤ 2 := by
  decide +kernel

theorem test_meets_TxpostRunsItsSteps : Carries (hubFrame (built 60)) .s0 .txpost [0, 0] ∧
    ((hubFrame (built 60)).session .s0).state = .active ∧ (0 : Byte).toNat = (0 : Handle).val ∧
    (2 : Byte).toNat ≤ 2 ∧ ((hubFrame (built 60)).frame 0).state = .building ∧
    ((hubFrame (built 60)).frame 0).holds = { Holds.none with build := setOf .s0 } := by decide +kernel

theorem test_meets_TxcancelAndTxdone : ((posted false).session .s0).state = .active ∧
    Carries (posted false) .s0 .txcancel [0] ∧ (posted false).inBuildSet .s0 0 = false ∧
    (∀ x ∈ ((posted false).posts.get .s1).queue, x.handle ≠ 0) ∧
    (hubFrame (built 60)).inBuildSet .s0 0 = true ∧
    ((posted false).posts.get .s0).queue = [] ++ post false :: [] ∧ (post false).started = false ∧
    inSet ((posted false).frame 0).holds.post .s0 = true ∧
    ((posted true).posts.get .s0).queue = [] ++ post true :: [] ∧ (post true).started = true ∧
    Carries hub .s0 .txdone [] ∧ (hub.posts.get .s0).completions = [] := by decide +kernel

theorem test_meets_TxcancelAndTxdone_completion :
    ((hub.setPosts .s0 { queue := [], number := 1, completions :=
      [(post false).ended .cancelled 0] }).posts.get .s0).completions = (post false).ended .cancelled 0 :: [] :=
  rfl

theorem test_meets_ExaminationAlwaysChooses_cases :
    (⟨none, some 256, none, none⟩ : Per (Option Nat)).get Scheduler.reset.pointer = none ∧
    (⟨some 256, none, none, none⟩ : Per (Option Nat)).get Scheduler.reset.pointer = some 256 ∧
    256 ≤ Scheduler.reset.deficit.get .s0 + (Per.const 1 : Per Nat).get .s0 * 256 ∧
    Scheduler.reset.deficit.get .s0 + (Per.const 1 : Per Nat).get .s0 * 256 < 257 := by decide

theorem test_meets_ExaminationAlwaysChooses :
    (∀ p, 1 ≤ (Per.const 1 : Per Nat).get p) ∧
    (∀ p len, (⟨none, none, some 1514, none⟩ : Per (Option Nat)).get p = some len → len ≤ 1514) ∧
    (∃ p, (⟨none, none, some 1514, none⟩ : Per (Option Nat)).get p ≠ none) ∧
    ∀ p, (Per.const none : Per (Option Nat)).get p = none := by
  refine ⟨by intro p; cases p <;> decide, ?_, ⟨.s2, by decide⟩, by intro p; cases p <;> rfl⟩
  intro p len h; cases p <;> simp [Per.get] at h; omega

theorem test_meets_TransmissionCompleteReports : (∀ p h e, hub.mac.tx ≠ .station p h e) ∧
    hub.mac.tx = .idle ∧ sendingPost.mac.tx = .station .s0 0 500 ∧
    (sendingPost.frame 0).holds.wire = true :=
  ⟨by intro p h e; simp [hub, Mac.reset], by decide +kernel⟩

theorem test_meets_TheLinkMoves :
    (hubMac { hub.mac with link := .down }).mac.link = .down ∧
    (hubMac { hub.mac with link := .down }).pins.linkup = true ∧
    (hubMac { hub.mac with link := .down }).pins.fullDuplex = true ∧ hub.mac.link ≠ .down ∧
    ({ hub with pins := { hub.pins with linkup := false } } : State).pins.linkup = false ∧
    ({ hub with pins := { hub.pins with linkup := true } } : State) = hub ∧
    ({ hub with pins := { hub.pins with speed100 := false } } : State) ≠ hub ∧
    hub.mac.comparePending = false ∧
    (hubMac { hub.mac with comparePending := true }).mac.comparePending = true := by decide +kernel

theorem test_meets_LinkTimersExpire : (∀ q e, hub.mac.tx ≠ .flow q e) ∧
    (hubMac { hub.mac with tx := .flow 9 5 }).mac.tx = .flow 9 5 ∧ hub.mac.link = .up .m100 ∧
    hub.mac.pauseUntil = none ∧ (hubMac { hub.mac with pauseUntil := some 5 }).mac.pauseUntil = some 5 ∧
    hub.mac.gen.refreshAt = none ∧
    (hubMac { hub.mac with gen := { hub.mac.gen with refreshAt := some 5 } }).mac.gen.refreshAt =
      some 5 :=
  ⟨by intro q e; simp [hub, Mac.reset], by decide +kernel⟩

theorem test_meets_ProposeOpensOrInstalls : Carries hub .s0 .propose (recordBytes record) ∧
    (hub.session .s0).state = .active ∧ (proposed 0).partition.proposal ≠ none ∧
    hub.partition.proposal = none ∧ recordValid record = true ∧
    recordValid { record with holdLimit := 4096 } = false ∧
    recordValid { record with holdLimit := 4095, pauseOn := 511, pauseOff := 512 } = true := by
  decide +kernel

/-- The hub with station 0 alone in session. -/
def alone : State := { hub with sessions := (Per.const Session.reset).set .s0 (hub.session .s0) }

theorem test_meets_ProposeOpensOrInstalls_required :
    (∀ q, inSet 14 q = (decide ((hub.session q).state = .active) && decide (q ≠ .s0))) ∧
    ∀ q, inSet 0 q = (decide ((alone.session q).state = .active) && decide (q ≠ .s0)) :=
  ⟨by intro q; cases q <;> decide, by intro q; cases q <;> decide⟩

theorem test_meets_VoicesAndExpiry : ((proposed 0).session .s0).state = .active ∧
    Carries (proposed 0) .s0 .endorse (halfBytes 7) ∧ Carries (proposed 0) .s0 .object (halfBytes 7) ∧
    hub.partition.proposal = none ∧
    (∃ o, (proposed 0).partition.proposal = some o ∧ o.number = 7 ∧ inSet o.required .s3 = false ∧
      inSet o.required .s0 = true ∧ inSet o.endorsed .s0 = false ∧
      insertStation o.endorsed .s0 ≠ o.required) ∧
    ∃ o, (proposed 4).partition.proposal = some o ∧ insertStation o.endorsed .s0 = o.required ∧
      inSet o.endorsed .s2 = true :=
  ⟨by decide, by decide, by decide, by decide, ⟨_, rfl, by decide⟩, ⟨_, rfl, by decide⟩⟩

theorem test_meets_EventsAndSnapshot : Carries hub .s0 .events [] ∧
    (hub.session .s0).state ≠ .offline ∧ Carries hub .s0 .snapshot [1] ∧
    (hub.session .s0).state ≠ .suspended ∧ 2 ≤ (2 : Byte).toNat ∧ (1 : Byte).toNat ≤ 1 := by decide

theorem test_meets_SetmaskReplacesTheMask : Carries hub .s0 .setmask (halfBytes 0x7FF) ∧
    ((hubIn .offline).session .s0).state = .offline ∧ (hub.session .s0).state ≠ .offline ∧
    (∃ k, 11 ≤ k ∧ (0x800 : Half).getLsbD k = true) ∧
    ∀ k, 11 ≤ k → (0x7FF : Half).getLsbD k = false := by
  refine ⟨by decide, by decide, by decide, ⟨11, by decide⟩, fun k hk => ?_⟩
  by_cases h : k < 16
  · interval_cases k <;> rfl
  · exact BitVec.getLsbD_of_ge _ _ (by omega)

theorem test_meets_CountersHoldAtTheTop : (4294967294 : Word).toNat + 1 ≤ 4294967295 ∧
    4294967295 < (4294967295 : Word).toNat + 1 ∧ reachesTop 4294967294 1 = true ∧
    reachesTop 4294967295 1 = false := by decide

/-! ### The cases of the vocabulary: the generator's answer and the taking of work -/

/-- The Link MAC with an ASSERTED generator. -/
def asserted : Mac := { hub.mac with gen := { asserted := true, pending := none, refreshAt := some 9 } }

theorem test_cases_LengthAnswered :
    LengthAnswered hub.mac (hub.mac.requested .m100 0 2048 true (some 524288)) 0 31 defaultRecord ∧
    LengthAnswered hub.mac hub.mac 0 32 defaultRecord ∧
    LengthAnswered asserted asserted 0 95 defaultRecord ∧
    LengthAnswered asserted (asserted.requested .m100 0 0 false none) 0 96 defaultRecord := by
  have h31 : (hub.respond 31).mac = hub.mac.requested .m100 0 2048 true (some 524288) := by
    decide +kernel
  have h32 : (hub.respond 32).mac = hub.mac := by decide +kernel
  have h95 : ((hubMac asserted).respond 95).mac = asserted := by decide +kernel
  have h96 : ((hubMac asserted).respond 96).mac = asserted.requested .m100 0 0 false none := by
    decide +kernel
  exact ⟨h31 ▸ State.respond_answered hub 31, h32 ▸ State.respond_answered hub 32,
    h95 ▸ State.respond_answered (hubMac asserted) 95,
    h96 ▸ State.respond_answered (hubMac asserted) 96⟩

theorem test_meets_TookWork : (posted false).mac.link = .up .m100 ∧ (posted false).mac.tx = .idle ∧
    (posted false).mac.gen.pending = none ∧ (posted false).mac.pauseUntil = none ∧
    (examine (posted false).weights (posted false).headLengths examinationBound 0
      (posted false).scheduler).1 = some .s0 ∧
    ((posted false).posts.get .s0).queue = post false :: [] ∧ ((posted false).frame 0).state ≠ .free ∧
    (examine hub.weights hub.headLengths examinationBound 0 hub.scheduler).1 = none := by
  decide +kernel

/-! ### Witnesses: a state, with a build and a post command waiting, that meets every invariant -/

/-- The hub with frame 0 being built by station 0 on granule 0, and its TXPOST waiting. -/
def alive : State :=
  { hubFrame (built 60) with
    store := { (hubFrame (built 60)).store with freeList := (List.finRange 512).drop 1 },
    pending := [.txpost .s0 0 0] }

theorem test_alive_steps : ∃ t, step alive = .next t := ⟨_, rfl⟩

theorem test_meets_StepKeepsAttentionSound : AttentionSound alive := by
  intro p; cases p <;> decide +kernel

theorem test_meets_StepKeepsContentsHoused : MemorySound alive ∧ ChainsSound alive := by
  unfold MemorySound ChainsSound; decide +kernel

theorem test_alive_frames : FramesSound alive :=
  ⟨by decide +kernel, by decide +kernel, by intro h e; exact absurd e (by simp [alive, hubFrame, hub,
    State.setFrame, Mac.reset])⟩

theorem test_meets_StepKeepsGranulesSound : GranulesSound alive := by
  refine ⟨test_alive_frames, fun g => ?_⟩
  have h : alive.chains = (List.finRange 512).take 1 := by decide +kernel
  have e : alive.store.freeList = (List.finRange 512).drop 1 := by
    simp only [alive]
  have k : ∀ l : List Granule, (l.drop 1 ++ l.take 1).count g = l.count g := fun l => by
    rw [List.count_append, Nat.add_comm, ← List.count_append, List.take_append_drop]
  rw [h, e, k]
  exact List.count_eq_one_of_mem (List.nodup_finRange 512) (List.mem_finRange g)

theorem test_alive_link : LinkSound alive :=
  ⟨by decide +kernel, by decide +kernel, by decide +kernel⟩

theorem test_meets_StepKeepsPartitionSound : PartitionSound alive :=
  ⟨by decide +kernel, by intro o h; exact absurd h (by simp [alive, hubFrame, hub, State.setFrame,
    State.reset, PartitionUnit.reset])⟩

theorem test_meets_StepKeepsPartitionSound_open : PartitionSound (proposed 4) := by
  refine ⟨by decide +kernel, ?_⟩
  rintro o ⟨rfl⟩
  exact ⟨by decide +kernel, by intro p; cases p <;> decide, by intro p; cases p <;> decide, by decide,
    by decide, by decide, by decide, by decide⟩

theorem test_meets_StepKeepsGeneratorSound : GeneratorSound alive :=
  ⟨test_alive_link, test_meets_StepKeepsPartitionSound, by decide +kernel, by decide +kernel⟩

theorem test_meets_StepKeepsQueuesBounded : QueuesBounded alive := by
  intro p; cases p <;> decide +kernel

theorem test_meets_StepKeepsWorkConserved : WorkConserved alive :=
  ⟨test_meets_StepKeepsPartitionSound, test_alive_link,
    ⟨by decide +kernel, by intro p; cases p <;> decide +kernel⟩, by intro p; cases p <;> decide +kernel,
    by intro _ _ _ p; cases p <;> decide +kernel⟩

theorem test_meets_StepKeepsSessionsSound : SessionsSound alive :=
  ⟨by intro p; cases p <;> exact fun h => absurd h (by decide +kernel),
    by intro p q; cases p <;> cases q <;> decide +kernel, by intro p; cases p <;> decide +kernel⟩

theorem test_meets_StepKeepsHoldsSound : HoldsSound alive where
  frames := test_alive_frames
  filling := by decide +kernel
  building := by
    have : ∀ h, (alive.frame h).state = .building → (alive.frame h).origin = some (.station .s0) ∧
      (alive.frame h).holds = { Holds.none with build := setOf .s0 } := by decide +kernel
    exact fun h hb => ⟨.s0, this h hb⟩
  settled := by decide +kernel
  intake := by intro p; cases p <;> decide +kernel
  intakeOnce := by intro p; cases p <;> decide +kernel
  post := by intro p; cases p <;> decide +kernel
  postOnce := by intro p; cases p <;> decide +kernel
  read := by
    have h : ∀ p h, inSet (alive.frame h).holds.read p = false := by
      intro p; cases p <;> decide +kernel
    have r : ∀ p, (alive.ports.get p).reading = none := by intro p; cases p <;> rfl
    intro p k; simp [h, r]
  reading := by intro p _; cases p <;> rfl
  wire := by
    have h : ∀ h, (alive.frame h).holds.wire = false := by decide +kernel
    have r : alive.mac.tx = .idle := rfl
    intro k; simp [h, r]
  sent := by intro p h e he; exact absurd he (by simp [alive, hubFrame, hub, State.setFrame, Mac.reset])
  started := by intro p; cases p <;> exact fun x hx => absurd hx (by decide +kernel +revert)

end Sys2Proof.Tests
end

section
/-! The GROUP kind (R50), and what a matching DELIVER entry makes of a walk (R39, R53, R54). -/

namespace Sys2Proof.Machine

/-! ### The bucket of a destination (R50) -/

theorem bucketOf_lt (dest : List Byte) : bucketOf dest < 64 := Nat.mod_lt _ (by decide)

theorem bucketOf_six (a b c d e f : Byte) :
    bucketOf [a, b, c, d, e, f] = (a ^^^ b ^^^ c ^^^ d ^^^ e ^^^ f).toNat % 64 := by
  simp [bucketOf]

theorem State.bytesAt_destination (s : State) (h : Handle) :
    s.bytesAt h 0 6 = [s.byteAt h 0, s.byteAt h 1, s.byteAt h 2, s.byteAt h 3, s.byteAt h 4,
      s.byteAt h 5] := by
  simp [State.bytesAt, List.range_succ]

theorem State.kindMatches_group (s : State) (h : Handle) (buckets : BitVec 64) :
    s.kindMatches h (.group buckets) = buckets.getLsbD (bucketOf (s.bytesAt h 0 6)) := rfl

theorem State.kindMatches_group_empty (s : State) (h : Handle) :
    s.kindMatches h (.group 0) = false := by
  simp [State.kindMatches_group]

theorem State.kindMatches_group_full (s : State) (h : Handle) :
    s.kindMatches h (.group (BitVec.allOnes 64)) = true := by
  rw [State.kindMatches_group, BitVec.getLsbD_allOnes, decide_eq_true (bucketOf_lt _)]

/-- Settles O24: the six destination bytes are written out, and the bucket is always a bit of the set. -/
theorem groupMatchesByBucket : Obligations.GroupMatchesByBucket := by
  refine ⟨fun s h buckets => ?_, fun s h => ⟨s.kindMatches_group_empty h, s.kindMatches_group_full h⟩,
    bucketOf_lt, by decide, by decide, by decide⟩
  rw [State.kindMatches_group, State.bytesAt_destination, bucketOf_six]

/-! ### A matching entry -/

/-- A matching entry of any action adds its one hit and becomes the last match (R53, steps 1 and 2). -/
theorem Walk.hit_counts (w : Walk) (s : State) (i : EntryIndex) (c : Contents) (origin : Origin)
    (owner : Station) : (w.hit s i c origin owner).matched = w.matched ++ [i] ∧
      (w.hit s i c origin owner).last = some i := by
  unfold Walk.hit Walk.act
  cases c.action with
  | deliver => exact ⟨rfl, rfl⟩
  | discard => exact ⟨rfl, rfl⟩
  | contain => dsimp only; split <;> exact ⟨rfl, rfl⟩

/-- What a DELIVER entry makes of the sets of a walk: the targets it reaches are the effective ones outside
the excluded set (R54). -/
theorem Walk.hit_deliver (w : Walk) (s : State) (i : EntryIndex) {c : Contents} (origin : Origin)
    (owner : Station) (hc : c.action = .deliver) : w.hit s i c origin owner =
      { w with
        delivery := w.delivery ||| (s.effectiveTargets origin owner c.targets &&& ~~~ w.excluded),
        wakeMark := if c.wake then
          w.wakeMark ||| (s.effectiveTargets origin owner c.targets &&& ~~~ w.excluded) else w.wakeMark,
        last := some i, matched := w.matched ++ [i] } := by
  simp only [Walk.hit, Walk.act, hc]

theorem Walk.hit_deliver_delivery (w : Walk) (s : State) (i : EntryIndex) {c : Contents}
    (origin : Origin) (owner : Station) (hc : c.action = .deliver) (q : Station) :
    inSet (w.hit s i c origin owner).delivery q = (inSet w.delivery q ||
      (inSet (s.effectiveTargets origin owner c.targets) q && !inSet w.excluded q)) := by
  simp [w.hit_deliver s i origin owner hc]

theorem Walk.hit_deliver_wakeMark (w : Walk) (s : State) (i : EntryIndex) {c : Contents}
    (origin : Origin) (owner : Station) (hc : c.action = .deliver) (q : Station) :
    inSet (w.hit s i c origin owner).wakeMark q = (inSet w.wakeMark q ||
      (c.wake && inSet (s.effectiveTargets origin owner c.targets) q && !inSet w.excluded q)) := by
  cases hw : c.wake <;> simp [w.hit_deliver s i origin owner hc, hw]

/-- A DELIVER entry whose effective targets are all excluded changes neither set (R54). -/
theorem Walk.hit_deliver_of_excluded (w : Walk) (s : State) (i : EntryIndex) {c : Contents}
    (origin : Origin) (owner : Station) (hc : c.action = .deliver)
    (hx : ∀ q, inSet (s.effectiveTargets origin owner c.targets) q = true → inSet w.excluded q = true) :
    (w.hit s i c origin owner).delivery = w.delivery ∧
      (w.hit s i c origin owner).wakeMark = w.wakeMark := by
  have unreached : ∀ q,
      (inSet (s.effectiveTargets origin owner c.targets) q && !inSet w.excluded q) = false := by
    intro q
    cases ht : inSet (s.effectiveTargets origin owner c.targets) q with
    | false => rfl
    | true => simp [hx q ht]
  refine ⟨set_ext fun q => ?_, set_ext fun q => ?_⟩
  · rw [w.hit_deliver_delivery s i origin owner hc, unreached, Bool.or_false]
  · rw [w.hit_deliver_wakeMark s i origin owner hc, Bool.and_assoc, unreached, Bool.and_false,
      Bool.or_false]

/-! ### The hits of the matched entries (R39) -/

theorem State.raiseHits_entry (s : State) (matched : List EntryIndex) (j : EntryIndex) :
    (s.raiseHits matched).entry j =
      if j ∈ matched then { s.entry j with hits := satAdd (s.entry j).hits 1 } else s.entry j := by
  have hv : (matched.map Fin.val).contains j.val = true ↔ j ∈ matched := by
    rw [List.contains_iff_mem, List.mem_map_of_injective Fin.val_injective]
  simp [State.raiseHits, State.entry, ← hv]

/-- Settles O27: `Walk.hit_deliver` gives the sets station by station, and the matched entries, the new one
among them, each take a hit. -/
theorem deliverAddsItsTargets : Obligations.DeliverAddsItsTargets := by
  intro s w i c origin owner hc
  obtain ⟨matched, last⟩ := w.hit_counts s i c origin owner
  have walked := w.hit_deliver s i origin owner hc
  refine ⟨w.hit_deliver_delivery s i origin owner hc, w.hit_deliver_wakeMark s i origin owner hc,
    w.hit_deliver_of_excluded s i origin owner hc, by rw [walked], by rw [walked], matched, last,
    fun j => ?_⟩
  simp only [matched, State.raiseHits_entry, List.mem_append, List.mem_singleton]

end Sys2Proof.Machine
end

section
/-! The checks of TXPOST (R116): what a handle byte and a flags byte name, what each check answers, and that a
command a session check refuses changes only its port (R75). -/

namespace Sys2Proof.Machine

/-! ### Handle and flags bytes (R114, R116, R190) -/

theorem handleOf_eq_some_iff {b : Byte} {h : Handle} : handleOf b = some h ↔ b.toNat = h.val := by
  unfold handleOf
  split
  · simp [Fin.ext_iff]
  · simp only [reduceCtorEq, false_iff]
    have := h.isLt
    omega

/-- A byte names a build of a station exactly when it is the handle of a frame in its build set (R111). -/
theorem State.namedBuild_eq_some_iff {s : State} {p : Station} {b : Byte} {h : Handle} :
    s.namedBuild p b = some h ↔ b.toNat = h.val ∧ s.inBuildSet p h = true := by
  rw [← handleOf_eq_some_iff, State.namedBuild]
  cases handleOf b with
  | none => simp
  | some k =>
    simp only [Option.ite_none_right_eq_some, Option.some.injEq]
    exact ⟨fun ⟨built, e⟩ => ⟨e, e ▸ built⟩, fun ⟨e, built⟩ => ⟨e ▸ built, e⟩⟩

theorem State.namedBuild_eq_none_iff {s : State} {p : Station} {b : Byte} :
    s.namedBuild p b = none ↔ ∀ h : Handle, b.toNat = h.val → s.inBuildSet p h = false := by
  simp [Option.eq_none_iff_forall_ne_some, State.namedBuild_eq_some_iff]

/-- A flags byte is refused exactly when it sets a flag beside the two defined ones, or both of them. -/
theorem postFlagsOf_eq_none_iff {b : Byte} : postFlagsOf b = none ↔ 2 < b.toNat := by
  unfold postFlagsOf
  split
  case h_4 not_plain not_wireOnly not_localOnly =>
    have others : b.toNat ≠ 0 ∧ b.toNat ≠ 1 ∧ b.toNat ≠ 2 :=
      ⟨not_plain, not_wireOnly, not_localOnly⟩
    simp only [true_iff]
    omega
  all_goals simp [*]

/-! ### What each check of TXPOST answers (R116) -/

theorem txpostEffect_of_no_build {p : Station} {handle : Byte} {s : State} (flags : Byte)
    (hn : s.namedBuild p handle = none) :
    txpostEffect p handle flags s = (s, refuse .txpost .badHandle) := by
  simp only [txpostEffect, hn]

theorem txpostEffect_of_no_flags {p : Station} {handle flags : Byte} {s : State} {h : Handle}
    (hn : s.namedBuild p handle = some h) (hf : postFlagsOf flags = none) :
    txpostEffect p handle flags s = (s, refuse .txpost .badArg) := by
  simp only [txpostEffect, hn, hf]

theorem txpostEffect_of_flags {p : Station} {handle flags : Byte} {s : State} {h : Handle}
    {v : PostFlags} (hn : s.namedBuild p handle = some h) (hf : postFlagsOf flags = some v) :
    txpostEffect p handle flags s = ((s.post p h v).1,
      answer [(s.posts.get p).number + 1, BitVec.ofNat 8 (s.post p h v).2]) := by
  simp only [txpostEffect, hn, hf]

/-! ### A row and its answer -/

/-- A row that is a station command, in a session state that does not permit it, is answered NOSESSION and
changes only its port (R75). -/
theorem exec_noSession {i : Instr} {p : Station} {c : Command} {input : List Byte} {s : State}
    (hi : commandInput i = some (p, c, input)) (hw : i.wf = true) (hc : Carries s p c input)
    (hs : permitted c (s.session p).state = false) :
    ∃ t, exec i s = .next t ∧ Answered s t p c .noSession (zeros (refusedLength c)) ∧
      t = { s with ports := t.ports } := by
  refine ⟨_, exec_command s hi hw, ?_⟩
  rw [State.command_carried hc]
  exact State.takeCommand_refused hs

theorem permitted_txpost_iff {v : SessionState} : permitted .txpost v = true ↔ v = .active := by
  simp [permitted_iff, sessionsFor]

/-- A TXPOST in ACTIVE answers what its effect answers and makes its effect. -/
theorem exec_txpost_answered {p : Station} {handle flags : Byte} {s u : State} {r : Reply}
    (hc : Carries s p .txpost [handle, flags]) (ha : (s.session p).state = .active)
    (he : txpostEffect p handle flags s = (u, r)) :
    ∃ t, exec (.txpost p handle flags) s = .next t ∧ Answered s t p .txpost r.result r.response ∧
      t = { u with ports := t.ports } := by
  obtain ⟨t, ran, answered, -, same⟩ :=
    exec_answered (i := .txpost p handle flags) rfl rfl hc (permitted_txpost_iff.mpr ha) he
  exact ⟨t, ran, answered, same⟩

/-- Settles O39: the session check, then `State.namedBuild`, then `postFlagsOf` decide the answer, and each
refusal has the effect that leaves the state as it is. -/
theorem txpostChecks : Obligations.TxpostChecks := by
  intro p handle flags s hc
  refine ⟨fun inactive => ?_, fun active unbuilt => ?_, fun active h named built => ?_⟩
  · exact exec_noSession rfl rfl hc (Bool.eq_false_iff.mpr (mt permitted_txpost_iff.mp inactive))
  · exact exec_txpost_answered hc active
      (txpostEffect_of_no_build flags (State.namedBuild_eq_none_iff.mpr unbuilt))
  · have build : s.namedBuild p handle = some h := State.namedBuild_eq_some_iff.mpr ⟨named, built⟩
    refine ⟨fun undefined => ?_, fun inRange => ?_⟩
    · exact exec_txpost_answered hc active
        (txpostEffect_of_no_flags build (postFlagsOf_eq_none_iff.mpr undefined))
    · have flagged : postFlagsOf flags ≠ none := fun e =>
        absurd (postFlagsOf_eq_none_iff.mp e) (Nat.not_lt.mpr inRange)
      obtain ⟨v, hv⟩ := Option.ne_none_iff_exists'.mp flagged
      obtain ⟨t, ran, answered, -⟩ :=
        exec_txpost_answered hc active (txpostEffect_of_flags build hv)
      exact ⟨t, _, _, ran, answered⟩

end Sys2Proof.Machine
end

section
/-! SETMASK (R168): which masks name only flags that exist, when ATTN is asserted, and what the command answers. -/

namespace Sys2Proof.Machine

/-! ### Flags and the bits that stand for them (Table 11-1) -/

theorem Flag.bit_lt (f : Flag) : f.bit < 11 := by
  cases f <;> decide

theorem Flag.exists_bit_eq {k : Nat} (hk : k < 11) : ∃ f : Flag, f.bit = k := by
  have every : ∀ i : Fin 11, ∃ f ∈ [Flag.rxready, .txdone, .wake, .drop, .expired, .link, .proposal,
      .partition, .abandoned, .table, .saturated], f.bit = i.val := by decide
  obtain ⟨f, -, hf⟩ := every ⟨k, hk⟩
  exact ⟨f, hf⟩

theorem flagSet_ne_zero_iff {v : FlagSet} : v ≠ 0 ↔ ∃ f : Flag, hasFlag v f = true := by
  constructor
  · intro nonzero
    by_contra none_set
    refine nonzero (BitVec.eq_of_getLsbD_eq fun k hk => ?_)
    obtain ⟨f, rfl⟩ := Flag.exists_bit_eq hk
    simpa [hasFlag] using fun set => none_set ⟨f, set⟩
  · rintro ⟨f, set⟩ rfl
    simp [hasFlag] at set

@[simp] theorem hasFlag_and (a b : FlagSet) (f : Flag) :
    hasFlag (a &&& b) f = (hasFlag a f && hasFlag b f) := by simp [hasFlag]

theorem hasFlag_setWidth (mask : Half) (f : Flag) :
    hasFlag (mask.setWidth 11) f = mask.getLsbD f.bit := by
  simp [hasFlag, f.bit_lt]

/-! ### The Attention state with its mask replaced (R167, R168) -/

@[simp] theorem Attention.setMask_mask (a : Attention) (m : FlagSet) : (a.setMask m).mask = m := rfl

@[simp] theorem Attention.setMask_flags (a : Attention) (m : FlagSet) :
    (a.setMask m).flags = a.flags := rfl

theorem Attention.setMask_attn_iff (a : Attention) (m : FlagSet) :
    (a.setMask m).attn = true ↔ ∃ f : Flag, hasFlag a.flags f = true ∧ hasFlag m f = true := by
  have attn : (a.setMask m).attn = (a.flags &&& m != 0) := rfl
  rw [attn, bne_iff_ne, flagSet_ne_zero_iff]
  simp only [hasFlag_and, Bool.and_eq_true]

/-! ### The mask a SETMASK carries (R190) -/

theorem half_lt_iff_high_bits_clear {mask : Half} :
    mask.toNat < 2048 ↔ ∀ k, 11 ≤ k → mask.getLsbD k = false := by
  constructor
  · intro small k hk
    exact Nat.testBit_lt_two_pow (small.trans_le (Nat.pow_le_pow_right Nat.two_pos hk))
  · intro clear
    exact Nat.lt_pow_two_of_testBit (n := 11) _ clear

theorem flagsOfHalf_of_high_bits_clear {mask : Half} (clear : ∀ k, 11 ≤ k → mask.getLsbD k = false) :
    flagsOfHalf mask = some (mask.setWidth 11) :=
  if_pos (half_lt_iff_high_bits_clear.mpr clear)

theorem flagsOfHalf_of_high_bit {mask : Half} (high : ∃ k, 11 ≤ k ∧ mask.getLsbD k = true) :
    flagsOfHalf mask = none := by
  obtain ⟨k, hk, set⟩ := high
  refine if_neg fun small => ?_
  have clear := half_lt_iff_high_bits_clear.mp small k hk
  exact Bool.false_ne_true (clear.symm.trans set)

theorem setWidth_toNat_of_high_bits_clear {mask : Half}
    (clear : ∀ k, 11 ≤ k → mask.getLsbD k = false) : (mask.setWidth 11).toNat = mask.toNat := by
  rw [BitVec.toNat_setWidth]
  exact Nat.mod_eq_of_lt (half_lt_iff_high_bits_clear.mpr clear)

/-! ### What SETMASK answers -/

theorem setmaskEffect_of_flags {mask : Half} {m : FlagSet} (p : Station) (s : State)
    (hm : flagsOfHalf mask = some m) : setmaskEffect p mask s =
      (s.setAttention p ((s.attention.get p).setMask m), answer []) := by
  simp only [setmaskEffect, hm]

theorem setmaskEffect_of_no_flags {mask : Half} (p : Station) (s : State)
    (hm : flagsOfHalf mask = none) : setmaskEffect p mask s = (s, refuse .setmask .badArg) := by
  simp only [setmaskEffect, hm]

theorem permitted_setmask_iff {v : SessionState} : permitted .setmask v = true ↔ v ≠ .offline := by
  cases v <;> simp [permitted]

/-- A SETMASK in session answers what its effect answers and makes its effect. -/
theorem exec_setmask_answered {p : Station} {mask : Half} {s u : State} {r : Reply}
    (hc : Carries s p .setmask (halfBytes mask)) (hs : (s.session p).state ≠ .offline)
    (he : setmaskEffect p mask s = (u, r)) :
    ∃ t, exec (.setmask p mask) s = .next t ∧ Answered s t p .setmask r.result r.response ∧
      t = { u with ports := t.ports } := by
  have effect : effectOf .setmask p (halfBytes mask) s = (u, r) := by
    simp only [effectOf, inHalf_halfBytes, he]
  obtain ⟨t, ran, answered, -, same⟩ :=
    exec_answered (i := .setmask p mask) rfl rfl hc (permitted_setmask_iff.mpr hs) effect
  exact ⟨t, ran, answered, same⟩

/-- Settles O49: the session check and then `flagsOfHalf` decide the answer, and the accepted mask goes into
the station's Attention state through `Attention.setMask`. -/
theorem setmaskReplacesTheMask : Obligations.SetmaskReplacesTheMask := by
  intro p mask s hc
  refine ⟨fun offline => ?_, fun inSession high => ?_, fun inSession clear => ?_⟩
  · exact exec_noSession rfl rfl hc
      (Bool.eq_false_iff.mpr fun allowed => permitted_setmask_iff.mp allowed offline)
  · exact exec_setmask_answered hc inSession
      (setmaskEffect_of_no_flags p s (flagsOfHalf_of_high_bit high))
  · obtain ⟨t, ran, answered, same⟩ := exec_setmask_answered hc inSession
      (setmaskEffect_of_flags p s (flagsOfHalf_of_high_bits_clear clear))
    have replaced : t.attention.get p = (s.attention.get p).setMask (mask.setWidth 11) := by
      rw [same]
      exact Per.get_set_self _ _ _
    refine ⟨t, ran, answered, ?_⟩
    rw [replaced, Attention.setMask_mask, Attention.setMask_flags, Attention.setMask_attn_iff]
    refine ⟨setWidth_toNat_of_high_bits_clear clear, rfl, ?_, same⟩
    simp only [hasFlag_setWidth]

end Sys2Proof.Machine
end

section
/-! What a step can do, once for all: an invariant that every command and event keeps is kept by every step. -/

namespace Sys2Proof.Machine

/-! ### The step -/

/-- A step takes a command or an event of the hub's own, on a hub that differs in its clock and queue only, or lets one
unit of time pass. -/
theorem step_cases {s t : State} (h : step s = .next t) :
    (∃ i clock pending, exec i { s with clock := clock, pending := pending } = .next t) ∨ t = s.tick := by
  unfold step at h
  split at h
  · next i rest _ => exact .inl ⟨i, s.clock, rest, h⟩
  · split at h
    · next i u due =>
      refine .inl ⟨i, u.clock, s.pending, ?_⟩
      unfold State.nextDue at due
      split at due
      · cases due
      · cases due; exact h
      · cases due; exact h
    · cases h; exact .inr rfl

/-- An invariant of which the clock and the queue are no part, and which every command and event keeps, is kept by
every step. -/
theorem step_keeps {I : State → Prop}
    (quiet : ∀ s clock pending, I s → I { s with clock := clock, pending := pending })
    (keeps : ∀ i s t, I s → exec i s = .next t → I t) :
    ∀ s t, I s → step s = .next t → I t := by
  intro s t hs h
  rcases step_cases h with ⟨i, clock, pending, ran⟩ | rfl
  · exact keeps i _ t (quiet s clock pending hs) ran
  · exact quiet s _ s.pending hs

/-! ### What a command that passed its checks makes of the hub -/

/-- What the effect of a command of station `p` can be, with the premises that its checks give, and the stream that it
leaves on the port: one case for each effect, and one for every command that changes nothing. -/
inductive Effect (s : State) (p : Station) : State → Option ReadStream → Prop where
  | nothing : Effect s p s none
  | join (offline : (s.session p).state = .offline) (present : s.pins.present.get p = true) :
    Effect s p (s.startSession p) none
  | leave (online : (s.session p).state ≠ .offline) :
    Effect s p (State.closeEvent s (s.teardown p)) none
  | suspend (active : (s.session p).state = .active) :
    Effect s p (State.closeEvent s
      ((s.setSession p { s.session p with state := .suspended }).departActive p)) none
  | resume (suspended : (s.session p).state = .suspended) :
    Effect s p (s.setSession p { s.session p with state := .active }) none
  | setaccept (active : (s.session p).state = .active) (set : StationSet) (value : DefaultIntake)
    (other : inSet set p = false) :
    Effect s p (s.setSession p { s.session p with accept := s.onlineOf set, defaultIntake := value })
      none
  | claim (active : (s.session p).state = .active) (i : EntryIndex) (free : (s.entry i).state = .free) :
    Effect s p (s.setEntry i (Entry.claimed p)) none
  | draft (active : (s.session p).state = .active) (c : Contents) :
    Effect s p (s.setDraft p (some c)) none
  | publish (active : (s.session p).state = .active) (i : EntryIndex) (c : Contents)
    (owned : (s.entry i).owner = some p) : Effect s p (s.publish p i c) none
  | disable (active : (s.session p).state = .active) (i : EntryIndex)
    (owned : (s.entry i).owner = some p) : Effect s p (s.disable i) none
  | retire (active : (s.session p).state = .active) (i : EntryIndex)
    (owned : (s.entry i).owner = some p) : Effect s p (s.retire p i) none
  | rxread (active : (s.session p).state = .active) (r : ReadStream)
    (queued : ∃ e ∈ s.intake.get p, e.handle = r.handle) :
    Effect s p (s.addReadHold p r.handle) (some r)
  | rxrelease (active : (s.session p).state = .active) (h : Handle)
    (queued : ∃ e ∈ s.intake.get p, e.handle = h) :
    Effect s p (State.closeEvent s (s.removeEntry p h)) none
  | txopen (active : (s.session p).state = .active) (h : Handle) (length : Nat)
    (fits : length ≤ 1514) (room : s.transmitUse p < 8)
    (granted : s.grantBuild p (granulesFor length) = some h) :
    Effect s p (State.closeEvent s (s.openBuild p h length)) none
  | txwrite (active : (s.session p).state = .active) (h : Handle) (offset : Nat) (data : List Byte) :
    Effect s p (s.storeBytes h offset data) none
  | txpost (active : (s.session p).state = .active) (h : Handle) (v : PostFlags)
    (built : s.inBuildSet p h = true) : Effect s p (s.post p h v).1 none
  | cancelBuild (active : (s.session p).state = .active) (h : Handle)
    (built : s.inBuildSet p h = true) :
    Effect s p (State.closeEvent s (s.dropBuildHold p h)) none
  | cancelPost (active : (s.session p).state = .active) (e : PostEntry) (h : Handle)
    (posted : s.postEntry p h = some e) (waits : e.started = false) :
    Effect s p (State.closeEvent s (s.cancelPost p e)) none
  | txdone (active : (s.session p).state = .active) (c : Completion) (rest : List Completion)
    (oldest : (s.posts.get p).completions = c :: rest) :
    Effect s p (s.setPosts p { s.posts.get p with completions := rest }) none
  | propose (active : (s.session p).state = .active) (record : PartitionRecord)
    (unopened : s.partition.proposal = none) (valid : recordValid record = true) :
    Effect s p (State.closeEvent s (s.propose p record)) none
  | endorse (active : (s.session p).state = .active) (o : Proposal)
    (opened : s.partition.proposal = some o) (required : inSet o.required p = true) :
    Effect s p (State.closeEvent s
      (s.settleProposal { o with endorsed := insertStation o.endorsed p })) none
  | object (active : (s.session p).state = .active) (o : Proposal) : Effect s p (s.abandon o) none
  | events (online : (s.session p).state ≠ .offline) :
    Effect s p (s.setAttention p (s.attention.get p).clearFlags) none
  | setmask (online : (s.session p).state ≠ .offline) (m : FlagSet) :
    Effect s p (s.setAttention p ((s.attention.get p).setMask m)) none
  | snapshot : Effect s p { s with stationCounters := s.stationCounters.set p .zero } none

/-! #### What the operands of a command name -/

/-- The place of the first row that meets a condition. -/
theorem Table.findIdx?_eq_some_iff {n : Nat} {α : Type} {t : Table n α} {c : α → Bool} {i : Fin n} :
    t.rows.findIdx? c = some i.val ↔ c (t.get i) = true ∧ ∀ k < i, c (t.get k) = false := by
  rw [List.findIdx?_eq_some_iff_getElem]
  constructor
  · rintro ⟨_, met, others⟩
    exact ⟨met, fun k hk => Bool.eq_false_iff.mpr (others k.val hk)⟩
  · rintro ⟨met, others⟩
    exact ⟨by rw [t.len]; exact i.isLt, met,
      fun j hj => Bool.eq_false_iff.mp (others ⟨j, by omega⟩ hj)⟩

theorem Table.findIdx?_eq_none_iff {n : Nat} {α : Type} {t : Table n α} {c : α → Bool} :
    t.rows.findIdx? c = none ↔ ∀ i, c (t.get i) = false := by
  rw [List.findIdx?_eq_none_iff]
  exact ⟨fun h i => h _ (Table.mem_rows.mpr ⟨i, rfl⟩), fun h a ha => by
    obtain ⟨i, rfl⟩ := Table.mem_rows.mp ha
    exact h i⟩

/-- A place that a search of a table finds lies in the table. -/
theorem Table.findIdx?_lt {n : Nat} {α : Type} {t : Table n α} {c : α → Bool} {i : Nat}
    (h : t.rows.findIdx? c = some i) : i < n := by
  obtain ⟨small, -⟩ := List.findIdx?_eq_some_iff_getElem.mp h
  rwa [t.len] at small

theorem lowestFree_eq_some_iff {t : Table 128 Frame} {h : Handle} : lowestFree t = some h ↔
    (t.get h).state = .free ∧ ∀ k < h, (t.get k).state ≠ .free := by
  have found := Table.findIdx?_eq_some_iff (t := t) (c := fun f => f.state = .free) (i := h)
  simp only [decide_eq_true_eq, decide_eq_false_iff_not] at found
  rw [← found, lowestFree]
  split
  · next i hi => simp [hi, Table.findIdx?_lt hi, Fin.ext_iff]
  · next none => simp [none]

theorem lowestFree_eq_none_iff {t : Table 128 Frame} : lowestFree t = none ↔
    ∀ h, (t.get h).state ≠ .free := by
  have found := Table.findIdx?_eq_none_iff (t := t) (c := fun f => f.state = .free)
  simp only [decide_eq_false_iff_not] at found
  rw [← found, lowestFree]
  split
  · next i hi => simp [hi, Table.findIdx?_lt hi]
  · next none => simp [none]

theorem lowestFreeEntry_eq_some_iff {t : Table 64 Entry} {i : EntryIndex} :
    lowestFreeEntry t = some i ↔ (t.get i).state = .free ∧ ∀ k < i, (t.get k).state ≠ .free := by
  have found := Table.findIdx?_eq_some_iff (t := t) (c := fun e => e.state = .free) (i := i)
  simp only [decide_eq_true_eq, decide_eq_false_iff_not] at found
  rw [← found, lowestFreeEntry]
  split
  · next k hk => simp [hk, Table.findIdx?_lt hk, Fin.ext_iff]
  · next none => simp [none]

theorem lowestFreeEntry_eq_none_iff {t : Table 64 Entry} : lowestFreeEntry t = none ↔
    ∀ i, (t.get i).state ≠ .free := by
  have found := Table.findIdx?_eq_none_iff (t := t) (c := fun e => e.state = .free)
  simp only [decide_eq_false_iff_not] at found
  rw [← found, lowestFreeEntry]
  split
  · next i hi => simp [hi, Table.findIdx?_lt hi]
  · next none => simp [none]

theorem State.claimTarget_free {s : State} {b : Byte} {i : EntryIndex}
    (e : s.claimTarget b = .ok i) : (s.entry i).state = .free := by
  unfold State.claimTarget at e
  split at e
  · split at e
    · next found => cases e; exact (lowestFreeEntry_eq_some_iff.mp found).1
    · cases e
  · split at e
    · split at e
      · next free => cases e; exact free
      · cases e
    · cases e

theorem State.queuedHandle_queued {s : State} {p : Station} {b : Byte} {h : Handle}
    (e : s.queuedHandle p b = some h) : ∃ x ∈ s.intake.get p, x.handle = h := by
  unfold State.queuedHandle at e
  split at e
  · split at e
    · next found =>
      cases e
      simpa [findIntake] using found
    · cases e
  · cases e

theorem State.namedBuild_built {s : State} {p : Station} {b : Byte} {h : Handle}
    (e : s.namedBuild p b = some h) : s.inBuildSet p h = true :=
  (State.namedBuild_eq_some_iff.mp e).2

theorem State.ownedEntry_owned {s : State} {p : Station} {b : Byte} {i : EntryIndex}
    (e : s.ownedEntry p b = .ok i) : (s.entry i).owner = some p := by
  unfold State.ownedEntry at e
  split at e
  · cases e
  · split at e
    · next owned => cases e; exact owned.2
    · cases e

theorem State.voice_required {s : State} {p : Station} {n : Half} {o : Proposal}
    (e : s.voice p n = .ok o) : s.partition.proposal = some o ∧ inSet o.required p = true := by
  unfold State.voice at e
  split at e
  · cases e
  · next opened =>
    split at e
    · cases e
    · split at e
      · next needed => cases e; simp_all
      · cases e

/-- The session states that permit a command which only ACTIVE stations may give. -/
theorem active_of_permitted {c : Command} {v : SessionState} (h : permitted c v = true)
    (hc : sessionsFor c = [.active]) : v = .active := by
  rw [permitted_iff, decide_eq_true_eq, hc] at h
  exact List.mem_singleton.mp h

/-- The effect of a command that its session state permits is one of the cases of `Effect`. -/
theorem effectOf_effect (c : Command) (p : Station) (input : List Byte) (s : State)
    (allowed : permitted c (s.session p).state = true) :
    Effect s p (effectOf c p input s).1 (effectOf c p input s).2.reading := by
  have active := fun h => active_of_permitted (c := c) allowed h
  cases c <;> simp only [effectOf]
  case status | getresult | linkstatus | pread => exact .nothing
  case join =>
    have offline : (s.session p).state = .offline := by simpa [permitted] using allowed
    unfold joinEffect
    split
    · next present => exact .join offline present
    · exact .nothing
  case leave => exact .leave (by simpa [permitted] using allowed)
  case suspend => exact .suspend (active rfl)
  case resume => exact .resume (by simpa [permitted] using allowed)
  case setaccept =>
    unfold setacceptEffect
    split
    · next value set _ _ =>
      split
      · exact .nothing
      · next other => exact .setaccept (active rfl) set value (Bool.eq_false_iff.mpr other)
    · exact .nothing
  case claim =>
    unfold claimEffect
    split
    · exact .nothing
    · split
      · exact .nothing
      · split
        · exact .nothing
        · next i target => exact .claim (active rfl) i (State.claimTarget_free target)
  case draft =>
    unfold draftEffect
    split
    · next c _ => exact .draft (active rfl) c
    · exact .nothing
  case publish =>
    unfold publishEffect
    split
    · exact .nothing
    · next i owned =>
      split
      · exact .nothing
      · next c _ => exact .publish (active rfl) i c (State.ownedEntry_owned owned)
  case disable =>
    unfold disableEffect
    split
    · exact .nothing
    · next i owned => exact .disable (active rfl) i (State.ownedEntry_owned owned)
  case retire =>
    unfold retireEffect
    split
    · exact .nothing
    · next i owned => exact .retire (active rfl) i (State.ownedEntry_owned owned)
  case tread => unfold treadEffect; split <;> exact .nothing
  case rxpeek =>
    unfold rxpeekEffect
    dsimp only
    split
    · exact .nothing
    · split <;> exact .nothing
  case rxread =>
    unfold rxreadEffect
    split
    · exact .nothing
    · next h queued =>
      split
      · exact .rxread (active rfl) { handle := h, offset := _, count := _, release := _, sent := _ }
          (State.queuedHandle_queued queued)
      · exact .nothing
  case rxrelease =>
    unfold rxreleaseEffect
    split
    · exact .nothing
    · next h queued => exact .rxrelease (active rfl) h (State.queuedHandle_queued queued)
  case txopen =>
    unfold txopenEffect
    split
    · exact .nothing
    · next fits =>
      split
      · exact .nothing
      · next room =>
        split
        · exact .nothing
        · next h granted =>
          simp only [maxLength, transmitAllowance] at fits room
          exact .txopen (active rfl) h _ (by omega) (by omega) granted
  case txwrite =>
    unfold txwriteEffect
    split
    · exact .nothing
    · split
      · exact .txwrite (active rfl) _ _ _
      · exact .nothing
  case txpost =>
    unfold txpostEffect
    split
    · exact .nothing
    · next h named =>
      split
      · exact .nothing
      · next v _ => exact .txpost (active rfl) h v (State.namedBuild_built named)
  case txcancel =>
    unfold txcancelEffect
    split
    · next h named => exact .cancelBuild (active rfl) h (State.namedBuild_built named)
    · split
      · exact .nothing
      · next e posted =>
        obtain ⟨h, -, found⟩ := Option.bind_eq_some_iff.mp posted
        split
        · exact .nothing
        · next waits => exact .cancelPost (active rfl) e h found (Bool.eq_false_iff.mpr waits)
  case txdone =>
    unfold txdoneEffect
    split
    · exact .nothing
    · next c rest oldest => exact .txdone (active rfl) c rest oldest
  case propose =>
    unfold proposeEffect
    split
    · exact .nothing
    · next unopened =>
      split
      · next valid => exact .propose (active rfl) _ (by simpa using unopened) valid
      · exact .nothing
  case endorse =>
    unfold endorseEffect
    split
    · exact .nothing
    · next o needed =>
      obtain ⟨opened, required⟩ := State.voice_required needed
      exact .endorse (active rfl) o opened required
  case object =>
    unfold objectEffect
    split
    · exact .nothing
    · next o _ => exact .object (active rfl) o
  case events => exact .events (by simpa [permitted] using allowed)
  case setmask =>
    have online : (s.session p).state ≠ .offline := by simpa [permitted] using allowed
    unfold setmaskEffect
    split
    · next m _ => exact .setmask online m
    · exact .nothing
  case snapshot =>
    unfold snapshotEffect
    dsimp only
    split
    · exact .nothing
    · exact .snapshot
    · exact .nothing

/-! ### What the longer operations leave as it was -/

@[simp] theorem State.post_keeps (s : State) (p : Station) (h : Handle) (v : PostFlags) :
    (s.post p h v).1.clock = s.clock ∧ (s.post p h v).1.pins = s.pins ∧
    (s.post p h v).1.store.mem = s.store.mem ∧ (s.post p h v).1.table.drafts = s.table.drafts ∧
    (s.post p h v).1.table.generation = s.table.generation ∧
    (s.post p h v).1.sessions = s.sessions ∧ (s.post p h v).1.mac.link = s.mac.link ∧
    (s.post p h v).1.mac.comparePending = s.mac.comparePending ∧
    (s.post p h v).1.mac.receiver = s.mac.receiver ∧ (s.post p h v).1.mac.rxCrc = s.mac.rxCrc ∧
    (s.post p h v).1.mac.pauseUntil = s.mac.pauseUntil ∧
    (s.post p h v).1.partition = s.partition ∧ (s.post p h v).1.linkCounters = s.linkCounters ∧
    (s.post p h v).1.pending = s.pending := by
  unfold State.post
  dsimp only
  split <;> simp

@[simp] theorem State.endFrame_keeps (s : State) (h : Handle) (e : EndOutcome) :
    (s.endFrame h e).clock = s.clock ∧ (s.endFrame h e).pins = s.pins ∧
    (s.endFrame h e).store.mem = s.store.mem ∧
    (s.endFrame h e).store.freeList = s.store.freeList ∧
    (s.endFrame h e).table.drafts = s.table.drafts ∧
    (s.endFrame h e).table.generation = s.table.generation ∧
    (s.endFrame h e).sessions = s.sessions ∧ (s.endFrame h e).mac.link = s.mac.link ∧
    (s.endFrame h e).mac.comparePending = s.mac.comparePending ∧
    (s.endFrame h e).mac.rxCrc = s.mac.rxCrc ∧ (s.endFrame h e).partition = s.partition ∧
    (s.endFrame h e).ports = s.ports ∧ (s.endFrame h e).pending = s.pending := by
  unfold State.endFrame
  dsimp only
  repeat' split
  all_goals simp

@[simp] theorem State.followInputs_keeps (s : State) :
    s.followInputs.clock = s.clock ∧ s.followInputs.pins = s.pins ∧
    s.followInputs.store.mem = s.store.mem ∧ s.followInputs.store.freeList = s.store.freeList ∧
    s.followInputs.table = s.table ∧ s.followInputs.sequence = s.sequence ∧
    s.followInputs.sessions = s.sessions ∧ s.followInputs.intake = s.intake ∧
    s.followInputs.partition = s.partition ∧
    s.followInputs.stationCounters = s.stationCounters ∧ s.followInputs.ports = s.ports ∧
    s.followInputs.pending = s.pending := by
  unfold State.followInputs
  split <;> simp

@[simp] theorem State.compareInputs_keeps (s : State) :
    s.compareInputs.clock = s.clock ∧ s.compareInputs.pins = s.pins ∧
    s.compareInputs.store.mem = s.store.mem ∧ s.compareInputs.store.freeList = s.store.freeList ∧
    s.compareInputs.table = s.table ∧ s.compareInputs.sequence = s.sequence ∧
    s.compareInputs.sessions = s.sessions ∧ s.compareInputs.intake = s.intake ∧
    s.compareInputs.partition = s.partition ∧
    s.compareInputs.stationCounters = s.stationCounters ∧ s.compareInputs.ports = s.ports ∧
    s.compareInputs.pending = s.pending := by
  unfold State.compareInputs
  split <;> simp

@[simp] theorem State.dropForSpeed_keeps (s : State) :
    s.dropForSpeed.clock = s.clock ∧ s.dropForSpeed.pins = s.pins ∧
    s.dropForSpeed.store.mem = s.store.mem ∧ s.dropForSpeed.store.freeList = s.store.freeList ∧
    s.dropForSpeed.table = s.table ∧ s.dropForSpeed.sequence = s.sequence ∧
    s.dropForSpeed.sessions = s.sessions ∧ s.dropForSpeed.intake = s.intake ∧
    s.dropForSpeed.scheduler = s.scheduler ∧ s.dropForSpeed.partition = s.partition ∧
    s.dropForSpeed.stationCounters = s.stationCounters ∧ s.dropForSpeed.ports = s.ports ∧
    s.dropForSpeed.pending = s.pending := by
  unfold State.dropForSpeed
  split <;> simp

@[simp] theorem State.setPhy_keeps (s : State) (i : PhyInput) (v : Bool) :
    (s.setPhy i v).clock = s.clock ∧ (s.setPhy i v).pins.present = s.pins.present ∧
    (s.setPhy i v).pins.speed100 = s.pins.speed100 ∧ (s.setPhy i v).store = s.store ∧
    (s.setPhy i v).table = s.table ∧ (s.setPhy i v).sequence = s.sequence ∧
    (s.setPhy i v).sessions = s.sessions ∧ (s.setPhy i v).intake = s.intake ∧
    (s.setPhy i v).posts = s.posts ∧ (s.setPhy i v).scheduler = s.scheduler ∧
    (s.setPhy i v).mac = s.mac ∧ (s.setPhy i v).partition = s.partition ∧
    (s.setPhy i v).attention = s.attention ∧ (s.setPhy i v).linkCounters = s.linkCounters ∧
    (s.setPhy i v).stationCounters = s.stationCounters ∧ (s.setPhy i v).ports = s.ports ∧
    (s.setPhy i v).pending = s.pending := by
  cases i <;> simp [State.setPhy]

/-! ### The bytes of a link frame -/

@[simp] theorem State.storeArrival_keeps (s : State) (h : Handle) (b : Byte) :
    (s.storeArrival h b).clock = s.clock ∧ (s.storeArrival h b).pins = s.pins ∧
    (s.storeArrival h b).table = s.table ∧ (s.storeArrival h b).sequence = s.sequence ∧
    (s.storeArrival h b).sessions = s.sessions ∧ (s.storeArrival h b).intake = s.intake ∧
    (s.storeArrival h b).posts = s.posts ∧ (s.storeArrival h b).scheduler = s.scheduler ∧
    (s.storeArrival h b).mac = s.mac ∧ (s.storeArrival h b).partition = s.partition ∧
    (s.storeArrival h b).attention = s.attention ∧
    (s.storeArrival h b).linkCounters = s.linkCounters ∧
    (s.storeArrival h b).stationCounters = s.stationCounters ∧
    (s.storeArrival h b).ports = s.ports ∧ (s.storeArrival h b).pending = s.pending := by
  have granted : ∀ {t}, s.requestGranule h = some t → ∃ u, t = (s.takeGranules 1).modifyFrame h u := by
    intro t e
    unfold State.requestGranule at e
    split at e
    · cases e; exact ⟨_, rfl⟩
    · cases e
  unfold State.storeArrival
  dsimp only
  split
  · simp
  split
  · simp
  split
  · split
    · next t e => obtain ⟨u, rfl⟩ := granted e; simp
    · simp
  · simp

/-! ### Admission, station by station -/

/-- What every drop and every admission of a frame keeps, its admission at all stations keeps; a station admits with the
decision of Table 5-3. -/
theorem State.admission_induction {P : State → Prop} {s : State} {h : Handle} (start : P s)
    (drop : ∀ (x : State) t c, P x → P (x.countDrop t c))
    (admitted : ∀ (x : State) t wake, P x → x.decide (x.frame h).granules t = .admitted →
      P (x.admitAt h wake t)) : P (s.admission h).1 := by
  have offer : ∀ wake (x : State × Nat) t, P x.1 → P (State.offer h wake x t).1 := by
    intro wake x t hx
    unfold State.offer
    split
    · exact hx
    · exact drop _ _ _ hx
    · exact drop _ _ _ hx
    · next decided => exact admitted _ _ _ hx decided
  unfold State.admission
  split
  · exact start
  · next r _ =>
    have all : ∀ (l : List Station) (x : State × Nat), P x.1 →
        P (l.foldl (fun acc t => if inSet r.delivery t then State.offer h r.wake acc t else acc) x).1 := by
      intro l
      induction l with
      | nil => exact fun _ hx => hx
      | cons t l ih =>
        intro x hx
        refine ih _ ?_
        dsimp only
        split
        · exact offer _ _ _ hx
        · exact hx
    exact all _ _ start

/-! ### The port events, shared by all commands -/

/-- The phases of a port before the command-taken point of a transaction (Table 10-1). -/
def Phase.untaken : Phase → Prop
  | .idle | .command | .input => True
  | _ => False

theorem Phase.untaken_iff {v : Phase} : v.untaken ↔ v = .idle ∨ v = .command ∨ v = .input := by
  cases v <;> simp [Phase.untaken]

theorem State.riseSelect_phase (s : State) (p : Station) :
    ((s.riseSelect p).ports.get p).phase = .idle := by
  unfold State.riseSelect
  split
  · assumption
  all_goals simp [Port.finish]

theorem State.fallSelect_phase {s : State} {p : Station} (idle : (s.ports.get p).phase = .idle) :
    ((s.fallSelect p).ports.get p).phase = .command := by
  simp [State.fallSelect, idle, Port.start]

/-- The port events that a row stands for open its transaction: after them the port can carry the command. -/
theorem State.openFor_carries (s : State) (p : Station) (c : Command) (input : List Byte) :
    Carries (s.openFor p c.code input) p c input := by
  unfold State.openFor
  split
  · next carries => exact carries_iff.mp carries
  · exact .inl (State.fallSelect_phase (s.riseSelect_phase p))

theorem Carries.untaken {s : State} {p : Station} {c : Command} {input : List Byte}
    (h : Carries s p c input) : (s.ports.get p).phase.untaken := by
  rw [Phase.untaken_iff]
  rcases h with h | ⟨h, -⟩ <;> simp [h]

/-- A port goes on with the RXREAD under way, if there is one, or it had not come to a command-taken point and reads
nothing. -/
def Port.sameReading (v w : Port) : Prop :=
  (w.reading.map (·.handle) = v.reading.map (·.handle) ∧ (w.phase.untaken → v.phase.untaken)) ∨
    (w.reading = none ∧ v.phase.untaken)

/-- What has to follow from an invariant before every command and event: a change of one port, the effect of each
command on its port, the end of a read, and each event of the other blocks. -/
structure EventsGive (I J : State → Prop) : Prop where
  quiet : ∀ s clock pending, I s → J { s with clock := clock, pending := pending }
  port : ∀ s p v, I s → (s.ports.get p).sameReading v → J (s.setPort p v)
  effect : ∀ s p u r v, I s → Effect s p u r → (s.ports.get p).phase.untaken → v.reading = r →
    ¬ v.phase.untaken → J (u.setPort p v)
  rise : ∀ s p v, I s → ¬ (s.ports.get p).phase.untaken → v.reading = none →
    J (State.closeEvent s ((s.dropReadHold p).setPort p v))
  lastByte : ∀ s p v r, I s → (s.ports.get p).streaming = some r →
    v = (s.ports.get p).sentLast r (s.byteAt r.handle (r.offset + r.count - 1)) →
    J (State.closeEvent s ((s.setPort p v).releaseRead p r))
  presentFall : ∀ p s, I s → s.inSession p = true →
    J (State.closeEvent (s.setPresent p false) ((s.setPresent p false).endSession p))
  present : ∀ p s level, I s → (s.inSession p = true → level = true) → J (s.setPresent p level)
  deviceReset : ∀ s t, execDeviceReset s = .next t → I s → J t
  phyInputChange : ∀ input level s, I s → J (State.closeEvent s (s.setPhy input level).followInputs)
  speedChange : ∀ level s, I s → J (State.closeEvent s
    (State.dropForSpeed { s with pins := { s.pins with speed100 := level } }))
  linkInputCompare : ∀ s, I s →
    J (State.compareInputs { s with mac := { s.mac with comparePending := false } })
  frameStart : ∀ s speed, I s → s.mac.link = .up speed → s.mac.receiver = .idle → J s.requestSlot
  byteArrival : ∀ b s h, I s → s.mac.receiver = .storing h →
    J (State.closeEvent s ((s.checkArrival b).storeArrival h b))
  frameEnd : ∀ e s h, I s → s.mac.receiver = .storing h → J (State.closeEvent s (s.endFrame h e))
  skipped : ∀ s, I s → s.mac.receiver = .skipping → J (s.setReceiver .idle)
  transmissionComplete : ∀ s p h t, I s → s.mac.tx = .station p h t →
    J (State.closeEvent s ((s.reach t).sendEnded p h)).takeWork
  flowControlComplete : ∀ s q t, I s → s.mac.tx = .flow q t →
    J (State.takeWork { (s.reach t).countLink .pauseSent 1 with mac := { s.mac with tx := .idle } })
  pauseTimerExpiry : ∀ s t, I s → s.mac.pauseUntil = some t →
    J (State.takeWork { s.reach t with mac := { s.mac with pauseUntil := none } })
  refreshTimerExpiry : ∀ s speed t at_, I s → s.mac.link = .up speed → s.mac.gen.refreshAt = some t →
    J (State.requestFlow { s.reach t with mac := { s.mac with gen := { s.mac.gen with
      refreshAt := some at_ } } } s.partition.installed.quanta)
  holdLimitExpiry : ∀ p s t, I s → s.holdDeadline p = some t →
    J (State.closeEvent s ((s.reach t).expireQueue p))
  proposalExpiry : ∀ s o, I s → s.partition.proposal = some o → J ((s.reach o.expiry).abandon o)

theorem EventsGive.mono {I I' J J' : State → Prop} (k : EventsGive I J) (h : ∀ s, I' s → I s)
    (g : ∀ s, J s → J' s) : EventsGive I' J' where
  quiet s clock pending hs := g _ (k.quiet s clock pending (h s hs))
  port s p v hs c := g _ (k.port s p v (h s hs) c)
  effect s p u r v hs c d e f := g _ (k.effect s p u r v (h s hs) c d e f)
  rise s p v hs c d := g _ (k.rise s p v (h s hs) c d)
  lastByte s p v r hs c d := g _ (k.lastByte s p v r (h s hs) c d)
  presentFall p s hs c := g _ (k.presentFall p s (h s hs) c)
  present p s level hs c := g _ (k.present p s level (h s hs) c)
  deviceReset s t ran hs := g _ (k.deviceReset s t ran (h s hs))
  phyInputChange input level s hs := g _ (k.phyInputChange input level s (h s hs))
  speedChange level s hs := g _ (k.speedChange level s (h s hs))
  linkInputCompare s hs := g _ (k.linkInputCompare s (h s hs))
  frameStart s speed hs c d := g _ (k.frameStart s speed (h s hs) c d)
  byteArrival b s x hs c := g _ (k.byteArrival b s x (h s hs) c)
  frameEnd e s x hs c := g _ (k.frameEnd e s x (h s hs) c)
  skipped s hs c := g _ (k.skipped s (h s hs) c)
  transmissionComplete s p x t hs c := g _ (k.transmissionComplete s p x t (h s hs) c)
  flowControlComplete s q t hs c := g _ (k.flowControlComplete s q t (h s hs) c)
  pauseTimerExpiry s t hs c := g _ (k.pauseTimerExpiry s t (h s hs) c)
  refreshTimerExpiry s speed t at_ hs c d := g _ (k.refreshTimerExpiry s speed t at_ (h s hs) c d)
  holdLimitExpiry p s t hs c := g _ (k.holdLimitExpiry p s t (h s hs) c)
  proposalExpiry s o hs c := g _ (k.proposalExpiry s o (h s hs) c)

theorem EventsGive.of_imp {I I' J : State → Prop} (k : EventsGive I J) (h : ∀ s, I' s → I s) :
    EventsGive I' J := k.mono h fun _ => id

theorem EventsGive.and {I J K : State → Prop} (j : EventsGive I J) (k : EventsGive I K) :
    EventsGive I fun s => J s ∧ K s where
  quiet s clock pending hs := ⟨j.quiet s clock pending hs, k.quiet s clock pending hs⟩
  port s p v hs same := ⟨j.port s p v hs same, k.port s p v hs same⟩
  effect s p u r v hs e untaken reads taken :=
    ⟨j.effect s p u r v hs e untaken reads taken, k.effect s p u r v hs e untaken reads taken⟩
  rise s p v hs taken none := ⟨j.rise s p v hs taken none, k.rise s p v hs taken none⟩
  lastByte s p v r hs reads e := ⟨j.lastByte s p v r hs reads e, k.lastByte s p v r hs reads e⟩
  presentFall p s hs on := ⟨j.presentFall p s hs on, k.presentFall p s hs on⟩
  present p s level hs on := ⟨j.present p s level hs on, k.present p s level hs on⟩
  deviceReset s t ran hs := ⟨j.deviceReset s t ran hs, k.deviceReset s t ran hs⟩
  phyInputChange input level s hs :=
    ⟨j.phyInputChange input level s hs, k.phyInputChange input level s hs⟩
  speedChange level s hs := ⟨j.speedChange level s hs, k.speedChange level s hs⟩
  linkInputCompare s hs := ⟨j.linkInputCompare s hs, k.linkInputCompare s hs⟩
  frameStart s speed hs up idle := ⟨j.frameStart s speed hs up idle, k.frameStart s speed hs up idle⟩
  byteArrival b s x hs stores := ⟨j.byteArrival b s x hs stores, k.byteArrival b s x hs stores⟩
  frameEnd e s x hs stores := ⟨j.frameEnd e s x hs stores, k.frameEnd e s x hs stores⟩
  skipped s hs skips := ⟨j.skipped s hs skips, k.skipped s hs skips⟩
  transmissionComplete s p x t hs sends :=
    ⟨j.transmissionComplete s p x t hs sends, k.transmissionComplete s p x t hs sends⟩
  flowControlComplete s q t hs sends :=
    ⟨j.flowControlComplete s q t hs sends, k.flowControlComplete s q t hs sends⟩
  pauseTimerExpiry s t hs runs := ⟨j.pauseTimerExpiry s t hs runs, k.pauseTimerExpiry s t hs runs⟩
  refreshTimerExpiry s speed t at_ hs up runs :=
    ⟨j.refreshTimerExpiry s speed t at_ hs up runs, k.refreshTimerExpiry s speed t at_ hs up runs⟩
  holdLimitExpiry p s t hs runs := ⟨j.holdLimitExpiry p s t hs runs, k.holdLimitExpiry p s t hs runs⟩
  proposalExpiry s o hs opened := ⟨j.proposalExpiry s o hs opened, k.proposalExpiry s o hs opened⟩

/-- An invariant that every command and event keeps. -/
abbrev EventsKeep (I : State → Prop) : Prop := EventsGive I I

namespace EventsKeep

variable {I : State → Prop} {s t : State} {p : Station}

theorem fallSelect (k : EventsKeep I) (hs : I s) : I (s.fallSelect p) := by
  unfold State.fallSelect
  split
  · next idle => exact k.port _ _ _ hs (.inr ⟨rfl, by simp [idle, Phase.untaken]⟩)
  · exact hs

theorem riseSelect (k : EventsKeep I) (hs : I s) : I (s.riseSelect p) := by
  unfold State.riseSelect
  split
  · exact hs
  · next phase => exact k.port _ _ _ hs (.inr ⟨rfl, by simp [phase, Phase.untaken]⟩)
  · next phase => exact k.port _ _ _ hs (.inr ⟨rfl, by simp [phase, Phase.untaken]⟩)
  · next idle command input =>
    exact k.rise _ _ _ hs (by rw [Phase.untaken_iff]; tauto) rfl

theorem openFor (k : EventsKeep I) (hs : I s) (code : Byte) (input : List Byte) :
    I (s.openFor p code input) := by
  unfold State.openFor
  split
  · exact hs
  · exact k.fallSelect (k.riseSelect hs)

theorem takeCommand (k : EventsKeep I) (hs : I s) (untaken : (s.ports.get p).phase.untaken)
    (c : Command) (input : List Byte) : I (s.takeCommand p c input (effectOf c p input)) := by
  have taken : ∀ (v : Port) r, ¬ (v.taken c input r).phase.untaken := by
    intro v r; cases h : c.isRead <;> simp [Port.taken, h, Phase.untaken]
  unfold State.takeCommand checked
  split
  · next allowed =>
    exact k.effect s p _ _ _ hs (effectOf_effect c p input s allowed) untaken rfl (taken _ _)
  · exact k.port _ _ _ hs (.inr ⟨rfl, untaken⟩)

theorem command (k : EventsKeep I) (hs : I s) (c : Command) (input : List Byte) :
    I (s.command p c input (effectOf c p input)) :=
  k.takeCommand (k.openFor hs _ _) (s.openFor_carries p c input).untaken c input

theorem takeUndefined (k : EventsKeep I) (hs : I s) (untaken : (s.ports.get p).phase.untaken)
    (code : Byte) : I (s.takeUndefined p code) :=
  k.port _ _ _ hs (.inr ⟨rfl, untaken⟩)

theorem undefinedCommand (k : EventsKeep I) {code : Byte} (hs : I s)
    (h : execUndefinedCommand p code s = .next t) : I t := by
  unfold execUndefinedCommand at h
  split at h
  · cases h
    split
    · next command => exact k.takeUndefined hs (by simp [command, Phase.untaken]) code
    · have opened := State.fallSelect_phase (s.riseSelect_phase p)
      exact k.takeUndefined (k.fallSelect (k.riseSelect hs)) (by simp [opened, Phase.untaken]) code
  · cases h

theorem shiftLast (k : EventsKeep I) {r : ReadStream} (hs : I s)
    (reads : (s.ports.get p).streaming = some r) : I (s.shiftLast p r) :=
  k.lastByte s p _ r hs reads rfl

theorem lastRequestedByte (k : EventsKeep I) (hs : I s)
    (h : execLastRequestedByte p s = .next t) : I t := by
  unfold execLastRequestedByte at h
  split at h
  · next r reads => cases h; exact k.shiftLast hs reads
  · cases h; exact hs

theorem receive (k : EventsKeep I) (hs : I s) (untaken : (s.ports.get p).phase.untaken) (c : Command)
    (input : List Byte) (b : Byte) : I (s.receive p c input b) := by
  unfold State.receive
  split
  · exact k.takeCommand hs untaken c input
  · exact k.port _ _ _ hs (.inl ⟨rfl, fun _ => untaken⟩)

/-- A byte shifted out after the command-taken point leaves the RXREAD under way. -/
theorem shifted (k : EventsKeep I) (hs : I s) (v : Port)
    (reading : v.reading.map (·.handle) = (s.ports.get p).reading.map (·.handle))
    (taken : ¬ v.phase.untaken) : I (s.setPort p v) :=
  k.port _ _ _ hs (.inl ⟨reading, fun h => absurd h taken⟩)

theorem sendOutput (k : EventsKeep I) (hs : I s) (output : (s.ports.get p).phase = .output) :
    I (s.sendOutput p) := by
  unfold State.sendOutput
  split
  · next r reads =>
    unfold State.shiftRead
    split
    · exact k.shiftLast hs reads
    · have reading : (s.ports.get p).reading = some r := by
        simp only [Port.streaming, output, Option.filter_eq_some_iff] at reads
        exact reads.1
      exact k.shifted hs _ (by simp [reading]) (by simp [output, Phase.untaken])
  · unfold Port.sendResponse
    split
    · exact k.shifted hs _ rfl (by simp [Port.shift, Phase.untaken])
    · next b rest _ => exact k.shifted hs _ rfl (by cases rest <;> simp [Port.shift, Phase.untaken])

theorem completedByte (k : EventsKeep I) {mosi : Byte} (hs : I s)
    (h : execCompletedByte p mosi s = .next t) : I t := by
  unfold execCompletedByte at h
  split at h <;> cases h
  case h_1 => exact hs
  case h_2 command =>
    have untaken : (s.ports.get p).phase.untaken := by simp [command, Phase.untaken]
    unfold State.receiveCommand
    split
    · exact k.receive hs untaken _ _ _
    · exact k.takeUndefined hs untaken _
  case h_3 input =>
    unfold State.receiveInput
    split
    · exact k.receive hs (by simp [input, Phase.untaken]) _ _ _
    · exact hs
  case h_4 => exact k.shifted hs _ rfl (by simp [Port.shift, Phase.untaken])
  case h_5 =>
    exact k.shifted hs _ rfl (by
      cases h : (s.ports.get p).hasOutput <;> simp [Port.sendResult, Port.shift, h, Phase.untaken])
  case h_6 output => exact k.sendOutput hs output
  case h_7 => exact k.shifted hs _ rfl (by simp [Port.shift, Phase.untaken])

/-- A row that is a station command keeps what the events keep. -/
theorem stationCommand (k : EventsKeep I) {i : Instr} {c : Command} {input : List Byte} (hs : I s)
    (hi : commandInput i = some (p, c, input)) (h : exec i s = .next t) : I t := by
  by_cases wf : i.wf = true
  · rw [exec_command s hi wf] at h
    cases h
    exact k.command hs c input
  · cases i <;> first | exact absurd rfl wf | skip
    all_goals simp only [commandInput, reduceCtorEq] at hi
    all_goals simp [exec, execDraft, execTxwrite, wf] at h

/-- An event that is no command, and no event of a station port. -/
theorem blockEvent (k : EventsKeep I) {i : Instr} (hs : I s) (h : exec i s = .next t)
    (hi : match i with
      | .presentFall _ | .presentRise _ | .deviceReset | .phyInputChange _ _ | .speedChange _
      | .linkInputCompare | .frameStart | .byteArrival _ | .frameEnd _ | .transmissionComplete
      | .flowControlComplete | .pauseTimerExpiry | .refreshTimerExpiry | .holdLimitExpiry _
      | .proposalExpiry => True
      | _ => False) : I t := by
  cases i <;> simp only at hi
  case presentFall p =>
    cases h
    split
    · next on => exact k.presentFall p s hs on
    · next off => exact k.present p s false hs (fun on => absurd on off)
  case presentRise p => cases h; exact k.present p s true hs fun _ => rfl
  case deviceReset => exact k.deviceReset s t h hs
  case phyInputChange input level =>
    simp only [exec, execPhyInputChange] at h
    split at h <;> cases h
    · exact hs
    · exact k.phyInputChange input level s hs
  case speedChange level =>
    simp only [exec, execSpeedChange] at h
    split at h <;> cases h
    · exact hs
    · exact k.speedChange level s hs
  case linkInputCompare =>
    simp only [exec, execLinkInputCompare] at h
    split at h <;> cases h
    · exact k.linkInputCompare s hs
    · exact hs
  case frameStart =>
    simp only [exec, execFrameStart] at h
    split at h <;> cases h
    · next up idle => exact k.frameStart s _ hs up idle
    · exact hs
  case byteArrival b =>
    simp only [exec, execByteArrival] at h
    split at h <;> cases h
    · next storing => exact k.byteArrival b s _ hs storing
    · exact hs
  case frameEnd e =>
    simp only [exec, execFrameEnd] at h
    split at h <;> cases h
    · next storing => exact k.frameEnd _ s _ hs storing
    · next skipping => exact k.skipped s hs skipping
    · exact hs
  case transmissionComplete =>
    simp only [exec, execTransmissionComplete] at h
    split at h <;> cases h
    · next sending => exact k.transmissionComplete s _ _ _ hs sending
    · exact hs
  case flowControlComplete =>
    simp only [exec, execFlowControlComplete] at h
    split at h <;> cases h
    · next sending => simpa using k.flowControlComplete s _ _ hs sending
    · exact hs
  case pauseTimerExpiry =>
    simp only [exec, execPauseTimerExpiry] at h
    split at h <;> cases h
    · next running => exact k.pauseTimerExpiry s _ hs running
    · exact hs
  case refreshTimerExpiry =>
    simp only [exec, execRefreshTimerExpiry] at h
    split at h <;> cases h
    · next up running => exact k.refreshTimerExpiry s _ _ _ hs up running
    · exact hs
  case holdLimitExpiry p =>
    simp only [exec, execHoldLimitExpiry] at h
    split at h <;> cases h
    · next running => exact k.holdLimitExpiry p s _ hs running
    · exact hs
  case proposalExpiry =>
    simp only [exec, execProposalExpiry] at h
    split at h <;> cases h
    · next opened => exact k.proposalExpiry s _ hs opened
    · exact hs

/-- What every command and event keeps, every step keeps. -/
theorem step (k : EventsKeep I) : ∀ s t, I s → Machine.step s = .next t → I t := by
  refine step_keeps k.quiet fun i s t hs h => ?_
  cases hi : commandInput i with
  | some x => exact k.stationCommand hs hi h
  | none =>
    cases i <;> simp only [commandInput, reduceCtorEq] at hi
    case selectFall => cases h; exact k.fallSelect hs
    case selectRise => cases h; exact k.riseSelect hs
    case undefinedCommand => exact k.undefinedCommand hs h
    case lastRequestedByte => exact k.lastRequestedByte hs h
    case completedByte => exact k.completedByte hs h
    all_goals exact k.blockEvent hs h trivial

end EventsKeep

end Sys2Proof.Machine
end

section
/-! ATTN follows the flags and the mask, and an OFFLINE station has neither (R82, R165 to R167): every step keeps
it so. The invariant is kept station by station. -/

namespace Sys2Proof.Machine

/-- `AttentionSound` at one station. -/
def AttentionSoundAt (s : State) (q : Station) : Prop :=
  (s.attention.get q).attn = ((s.attention.get q).flags &&& (s.attention.get q).mask != 0) ∧
    (s.inSession q = false → (s.attention.get q).flags = 0 ∧ (s.attention.get q).mask = 0)

namespace AttentionSoundAt

variable {s t : State} {p q : Station}

/-- The invariant is about the Attention Unit and the session of the station alone. -/
theorem congr (h : AttentionSoundAt s q) (ha : t.attention.get q = s.attention.get q)
    (hs : t.inSession q = s.inSession q) : AttentionSoundAt t q := by
  unfold AttentionSoundAt
  rw [ha, hs]
  exact h

theorem of_keeps (h : AttentionSoundAt s q) (ha : t.attention = s.attention)
    (hs : t.sessions = s.sessions) : AttentionSoundAt t q :=
  h.congr (by rw [ha]) (State.inSession_of_sessions hs q)

/-- A station that comes into a session, or stays in one, has its flags and its mask as they were. -/
theorem online (h : AttentionSoundAt s q) (ha : t.attention = s.attention)
    (ht : t.inSession q = true) : AttentionSoundAt t q :=
  ⟨by rw [ha]; exact h.1, fun off => by simp [ht] at off⟩

/-- A flag is raised in a session only, and ATTN is brought up to date (R165, R167). -/
theorem raised (h : AttentionSoundAt s q) {f : Flag} {who : Station → Prop} (r : Raised s t f who)
    (hs : t.sessions = s.sessions) : AttentionSoundAt t q := by
  by_cases c : who q ∧ s.inSession q = true
  · have on := (State.inSession_of_sessions hs q).trans c.2
    exact ⟨by rw [(r q).1 c], fun off => by simp [on] at off⟩
  · exact h.congr ((r q).2 c) (State.inSession_of_sessions hs q)

/-- Attention state of a station replaced by one that is brought up to date, while the station is in session. -/
theorem updated (h : AttentionSoundAt s q) (a : Attention) (on : s.inSession p = true) :
    AttentionSoundAt (s.setAttention p a.update) q := by
  by_cases hq : q = p
  · subst hq
    exact ⟨by simp [Attention.update], fun off => by
      have : (s.setAttention q a.update).inSession q = true := on
      simp [this] at off⟩
  · have others : (s.setAttention p a.update).attention.get q = s.attention.get q :=
      Per.get_set_ne _ _ hq
    unfold AttentionSoundAt
    rw [others]
    exact h

/-! ### The shared operations -/

theorem raiseFlag (h : AttentionSoundAt s q) (f : Flag) : AttentionSoundAt (s.raiseFlag f p) q :=
  h.raised (s.raiseFlag_raised f p) (by simp)

theorem raiseFlagAt (h : AttentionSoundAt s q) (f : Flag) (v : StationSet) :
    AttentionSoundAt (s.raiseFlagAt f v) q :=
  h.raised (s.raiseFlagAt_raised f v) (by simp)

theorem raiseFlagEverywhere (h : AttentionSoundAt s q) (f : Flag) :
    AttentionSoundAt (s.raiseFlagEverywhere f) q :=
  h.raised (s.raiseFlagEverywhere_raised f) (by simp)

theorem countLink (h : AttentionSoundAt s q) (c : LinkCounter) (n : Nat) :
    AttentionSoundAt (s.countLink c n) q := by
  have saturated := s.countLink_saturated c n
  cases r : reachesTop (s.linkCounters.get c) n
  · exact h.of_keeps (saturated.2 r) (by simp)
  · exact h.raised (saturated.1 r) (by simp)

theorem countStation (h : AttentionSoundAt s q) (c : StationCounter) (n : Nat) :
    AttentionSoundAt (s.countStation p c n) q := by
  have saturated := s.countStation_saturated p c n
  cases r : reachesTop ((s.stationCounters.get p).get c) n
  · exact h.of_keeps (saturated.2 r) (by simp)
  · exact h.raised (saturated.1 r) (by simp)

theorem closeEvent (h : AttentionSoundAt t q) : AttentionSoundAt (State.closeEvent s t) q :=
  h.of_keeps (by simp) (by simp)

theorem takeWork (h : AttentionSoundAt s q) : AttentionSoundAt s.takeWork q :=
  h.of_keeps (by simp) (by simp)

theorem complete (h : AttentionSoundAt s q) (c : Completion) : AttentionSoundAt (s.complete p c) q :=
  (h.of_keeps (t := s.setPosts p _) (by simp) (by simp)).raiseFlag .txdone

/-- What each step of a fold keeps, the fold keeps. -/
theorem foldl {β : Type} {f : State → β → State} (l : List β)
    (hf : ∀ s b, AttentionSoundAt s q → AttentionSoundAt (f s b) q) (h : AttentionSoundAt s q) :
    AttentionSoundAt (l.foldl f s) q := by
  induction l generalizing s with
  | nil => exact h
  | cons b l ih => exact ih (hf s b h)

/-! ### Classification and admission -/

theorem countDrop (h : AttentionSoundAt s q) (c : StationCounter) : AttentionSoundAt (s.countDrop p c) q :=
  (h.countStation c 1).raiseFlag .drop

theorem classify (h : AttentionSoundAt s q) (k : Handle) (o : Origin) :
    AttentionSoundAt (s.classify k o) q :=
  foldl _ (fun s p h => by split; exacts [h.countDrop _, h]) (h.of_keeps (by simp) (by simp))

theorem admitAt (h : AttentionSoundAt s q) (k : Handle) (wake : Bool) :
    AttentionSoundAt (s.admitAt k wake p) q := by
  have counted : ∀ x : State, AttentionSoundAt x q →
      AttentionSoundAt ((x.countStation p .delivered 1).raiseFlag .rxready p) q :=
    fun x hx => (hx.countStation _ _).raiseFlag _
  unfold State.admitAt
  dsimp only
  split
  · refine ((counted _ ?_).countStation _ _).raiseFlag _
    exact h.of_keeps (by simp) (by simp)
  · exact counted _ (h.of_keeps (by simp) (by simp))

theorem admission (h : AttentionSoundAt s q) (k : Handle) : AttentionSoundAt (s.admission k).1 q :=
  State.admission_induction (P := fun x => AttentionSoundAt x q) h (fun _ _ _ hx => hx.countDrop _) (fun _ _ _ hx _ => hx.admitAt _ _)

/-! ### The partition agreement -/

theorem expireQueue (h : AttentionSoundAt s q) : AttentionSoundAt (s.expireQueue p) q := by
  unfold State.expireQueue
  split
  · exact h
  · refine (countStation ?_ _ _).raiseFlag _
    exact h.of_keeps (by simp) (by simp)

theorem install (h : AttentionSoundAt s q) (n : Half) (r : PartitionRecord) :
    AttentionSoundAt (s.install n r) q := by
  unfold State.install State.expireAtInstallation
  refine raiseFlagEverywhere ?_ _
  split
  · exact h.of_keeps rfl rfl
  · refine foldl _ (fun s p h => h.expireQueue) ?_
    exact h.of_keeps rfl rfl

theorem abandon (h : AttentionSoundAt s q) (o : Proposal) : AttentionSoundAt (s.abandon o) q := by
  unfold State.abandon
  refine raiseFlagAt ?_ _ _
  exact h.of_keeps rfl rfl

theorem settleProposal (h : AttentionSoundAt s q) (o : Proposal) :
    AttentionSoundAt (s.settleProposal o) q := by
  unfold State.settleProposal
  split
  · exact h.install _ _
  · exact h.of_keeps rfl rfl

theorem departActive (h : AttentionSoundAt s q) : AttentionSoundAt (s.departActive p) q := by
  unfold State.departActive
  split
  · exact h
  · split
    · exact h.abandon _
    · split
      · exact h.settleProposal _
      · exact h

theorem propose (h : AttentionSoundAt s q) (r : PartitionRecord) : AttentionSoundAt (s.propose p r) q := by
  unfold State.propose
  dsimp only
  split
  · exact (h.of_keeps (t := s.advanceCounter) (by simp) (by simp)).install _ _
  · refine raiseFlagAt ?_ _ _
    exact h.of_keeps (by simp) (by simp)

/-! ### The end of a session -/

/-- The teardown of a session: the station that left keeps no flag and no mask, and the others are as sound as they
were (R82). -/
theorem teardown (h : AttentionSoundAt s q) : AttentionSoundAt (s.teardown p) q := by
  unfold State.teardown
  dsimp only
  by_cases hq : q = p
  · subst hq
    have cleared : ∀ x : State, (x.clearAttention q).attention.get q = Attention.reset := by
      simp [State.clearAttention]
    unfold AttentionSoundAt
    rw [cleared]
    exact ⟨rfl, fun _ => ⟨rfl, rfl⟩⟩
  · have retired : AttentionSoundAt ((s.dropStationHolds p).retireOwned p) q := by
      unfold State.retireOwned
      refine raiseFlagAt ?_ _ _
      exact h.of_keeps rfl rfl
    have offline := retired.congr (t := ((s.dropStationHolds p).retireOwned p).goOffline p) (by simp)
      (by simp [State.inSession, State.session, State.goOffline, hq])
    exact offline.departActive.congr (Per.get_set_ne _ _ hq) rfl

/-! ### The commands -/

/-- The mask is cleared and the flags are kept when a session starts (R69). -/
theorem startSession (h : AttentionSoundAt s q) : AttentionSoundAt (s.startSession p) q := by
  by_cases hq : q = p
  · subst hq
    exact ⟨by simp [State.startSession, Attention.setMask, Attention.update],
      fun off => by simp [State.startSession, State.inSession, State.session, Session.joined] at off⟩
  · exact h.congr (by simp [State.startSession, Per.get_set, hq])
      (by simp [State.startSession, State.inSession, State.session, Per.get_set, hq])

theorem dropBuildHold (h : AttentionSoundAt s q) (k : Handle) : AttentionSoundAt (s.dropBuildHold p k) q :=
  h.of_keeps (by simp) (by simp)

theorem post (h : AttentionSoundAt s q) (k : Handle) (v : PostFlags) :
    AttentionSoundAt (s.post p k v).1 q := by
  have settled : AttentionSoundAt (s.settlePost p k) q := h.of_keeps (by simp) (by simp)
  have delivered : AttentionSoundAt ((s.settlePost p k).deliverPost p k v).1 q := by
    unfold State.deliverPost
    split
    · exact settled
    · exact (settled.classify _ _).admission _
  unfold State.post
  refine closeEvent ?_
  unfold State.countPost
  refine ((dropBuildHold ?_ _).countStation _ _).countStation _ _
  split
  · exact delivered.of_keeps (by simp) (by simp)
  · exact (delivered.complete _).countStation _ _

/-- The effect of a command keeps the Attention Unit sound. -/
theorem effect {u : State} {r : Option ReadStream} (h : AttentionSoundAt s q) (e : Effect s p u r) :
    AttentionSoundAt u q := by
  have on : (s.session p).state ≠ .offline → s.inSession p = true := by simp [State.inSession]
  cases e with
  | nothing => exact h
  | join => exact h.startSession
  | leave => exact h.teardown.closeEvent
  | suspend active =>
    refine (departActive ?_).closeEvent
    by_cases hq : q = p
    · subst hq
      exact h.online (by simp) (by simp [State.inSession, State.session])
    · exact h.congr (by simp) (by simp [State.inSession, State.session, Per.get_set, hq])
  | resume =>
    by_cases hq : q = p
    · subst hq
      exact h.online (by simp) (by simp [State.inSession, State.session])
    · exact h.congr (by simp) (by simp [State.inSession, State.session, Per.get_set, hq])
  | setaccept => exact h.congr (by simp) (by simp [State.inSession, State.session, Per.get_set]; split <;> simp [*])
  | publish =>
    unfold State.publish
    refine raiseFlagAt ?_ _ _
    exact h.of_keeps (by simp) (by simp)
  | retire =>
    unfold State.retire
    dsimp only
    split
    · refine raiseFlagAt ?_ _ _
      exact h.of_keeps (by simp) (by simp)
    · exact h.of_keeps (by simp) (by simp)
  | txpost => exact h.post _ _
  | cancelPost =>
    unfold State.cancelPost
    refine ((complete ?_ _).countStation _ _).closeEvent
    exact h.of_keeps (by simp) (by simp)
  | propose => exact (h.propose _).closeEvent
  | endorse => exact (h.settleProposal _).closeEvent
  | object => exact h.abandon _
  | events online => exact h.updated _ (on online)
  | setmask online => exact h.updated _ (on online)
  | rxrelease | txopen | cancelBuild => exact closeEvent (h.of_keeps (by simp) (by simp))
  | claim | draft | disable | rxread | txwrite | txdone => exact h.of_keeps (by simp) (by simp)
  | snapshot => exact h.of_keeps rfl rfl

/-! ### The link -/

theorem setReceiver (h : AttentionSoundAt s q) (v : Receiver) : AttentionSoundAt (s.setReceiver v) q :=
  h.of_keeps (by simp) (by simp)

theorem dropFillHold (h : AttentionSoundAt s q) (k : Handle) : AttentionSoundAt (s.dropFillHold k) q :=
  h.of_keeps (by simp) (by simp)

theorem discardFrame (h : AttentionSoundAt s q) (k : Handle) (c : LinkCounter) :
    AttentionSoundAt (s.discardFrame k c) q :=
  ((h.countLink c 1).dropFillHold k).setReceiver .idle

theorem reportEnd (h : AttentionSoundAt s q) (k : Handle) (v : PostOutcome) :
    AttentionSoundAt (s.reportEnd p k v) q := by
  unfold State.reportEnd
  split
  · split
    · exact h
    · refine complete ?_ _
      exact h.of_keeps (by simp) (by simp)
  · exact h

theorem endTransmission (h : AttentionSoundAt s q) (k : Handle) : AttentionSoundAt (s.endTransmission p k) q :=
  h.of_keeps (by simp) (by simp)

theorem moveDown (h : AttentionSoundAt s q) : AttentionSoundAt s.moveDown q := by
  have down : AttentionSoundAt s.takeDown q := h.of_keeps (by simp) (by simp)
  have cut : AttentionSoundAt s.takeDown.cutReception q := by
    unfold State.cutReception
    split
    · exact down
    · exact down.discardFrame _ _
    · exact down.setReceiver _
  unfold State.moveDown
  refine raiseFlagEverywhere ?_ _
  unfold State.loseTransmission
  split
  · exact cut
  · exact ((cut.reportEnd _ _).countLink _ _).endTransmission _
  · exact cut.of_keeps rfl rfl

theorem moveUp (h : AttentionSoundAt s q) : AttentionSoundAt s.moveUp q := by
  have up : AttentionSoundAt { s with mac := { s.mac with link := .up s.pinSpeed } } q :=
    h.of_keeps rfl rfl
  exact (up.raiseFlagEverywhere .link).of_keeps (by simp [State.moveUp]) (by simp)

theorem followInputs (h : AttentionSoundAt s q) : AttentionSoundAt s.followInputs q := by
  unfold State.followInputs
  split
  · exact h.moveUp
  · exact h.moveDown
  · exact h

theorem settleFrame (h : AttentionSoundAt s q) (k : Handle) : AttentionSoundAt (s.settleFrame k) q := by
  unfold State.settleFrame
  dsimp only
  have counted : AttentionSoundAt ((s.modifyFrame k fun f =>
      { f with state := .settled, truncated := false, tooLong := false }).countGood (s.frame k).length) q := by
    unfold State.countGood
    refine (countLink ?_ _ _).countLink _ _
    exact h.of_keeps (by simp) (by simp)
  have admitted := (counted.classify k .link).admission k
  refine setReceiver (dropFillHold ?_ _) _
  unfold State.countUndelivered
  split
  · exact admitted.countLink _ _
  · exact admitted

theorem endFrame (h : AttentionSoundAt s q) (k : Handle) (e : EndOutcome) :
    AttentionSoundAt (s.endFrame k e) q := by
  unfold State.endFrame
  dsimp only
  split
  · exact h.discardFrame _ _
  · exact h.discardFrame _ _
  · split
    · exact h.discardFrame _ _
    split
    · exact h.discardFrame _ _
    split
    · exact h.discardFrame _ _
    split
    · exact discardFrame (h.of_keeps (by simp) (by simp)) _ _
    · exact h.settleFrame _

theorem sendEnded (h : AttentionSoundAt s q) (k : Handle) : AttentionSoundAt (s.sendEnded p k) q := by
  have counted : AttentionSoundAt (s.countSent p k) q := by
    unfold State.countSent
    split
    · exact h.countStation _ _
    · exact h
  exact (((counted.reportEnd _ _).countLink _ _).countLink _ _).endTransmission _

end AttentionSoundAt

/-! ### The step -/

theorem attentionSound_eventsKeep (q : Station) : EventsKeep (AttentionSoundAt · q) where
  quiet _ _ _ h := h.of_keeps rfl rfl
  port _ _ _ h _ := h.of_keeps (by simp) (by simp)
  effect _ _ _ _ _ h e _ _ _ := (h.effect e).of_keeps (by simp) (by simp)
  rise _ _ _ h _ _ := AttentionSoundAt.closeEvent (h.of_keeps (by simp) (by simp))
  lastByte _ _ _ _ h _ _ := AttentionSoundAt.closeEvent (h.of_keeps (by simp) (by simp))
  presentFall p s h _ := by
    refine AttentionSoundAt.closeEvent (AttentionSoundAt.teardown ?_)
    exact h.of_keeps (by simp) (by simp)
  present _ _ _ h _ := h.of_keeps (by simp) (by simp)
  deviceReset _ _ ran _ := by
    cases ran
    have reset : (Per.const Attention.reset).get q = Attention.reset := Per.get_const _ q
    exact ⟨by rw [show State.attention _ = Per.const Attention.reset from rfl, reset]; rfl,
      fun _ => by rw [show State.attention _ = Per.const Attention.reset from rfl, reset]; exact ⟨rfl, rfl⟩⟩
  phyInputChange _ _ _ h := by
    refine AttentionSoundAt.closeEvent (AttentionSoundAt.followInputs ?_)
    exact h.of_keeps (by simp) (by simp)
  speedChange _ _ h := by
    refine AttentionSoundAt.closeEvent ?_
    unfold State.dropForSpeed
    split
    · exact h.of_keeps rfl rfl
    · refine AttentionSoundAt.moveDown ?_
      exact h.of_keeps rfl rfl
  linkInputCompare _ h := by
    unfold State.compareInputs
    split
    · refine AttentionSoundAt.moveUp ?_
      exact h.of_keeps rfl rfl
    · exact h.of_keeps rfl rfl
  frameStart _ _ h _ _ := by
    unfold State.requestSlot
    split
    · exact h.of_keeps rfl rfl
    · exact (h.countLink _ _).setReceiver _
  byteArrival _ _ _ h _ := AttentionSoundAt.closeEvent (h.of_keeps (by simp) (by simp))
  frameEnd _ _ _ h _ := (h.endFrame _ _).closeEvent
  skipped _ h _ := h.setReceiver _
  transmissionComplete _ _ _ _ h _ := by
    refine (AttentionSoundAt.sendEnded ?_ _).closeEvent.takeWork
    exact h.of_keeps (by simp) (by simp)
  flowControlComplete s _ t h _ := by
    have counted := (h.of_keeps (t := s.reach t) (by simp) (by simp)).countLink .pauseSent 1
    exact counted.of_keeps (by simp) (by simp)
  pauseTimerExpiry _ _ h _ := h.of_keeps (by simp) (by simp)
  refreshTimerExpiry _ _ _ _ h _ _ := h.of_keeps (by simp) (by simp)
  holdLimitExpiry _ _ _ h _ := by
    refine (AttentionSoundAt.expireQueue ?_).closeEvent
    exact h.of_keeps (by simp) (by simp)
  proposalExpiry _ _ h _ := by
    refine AttentionSoundAt.abandon ?_ _
    exact h.of_keeps (by simp) (by simp)

/-- Settles O52: at each station the operations that touch its flags, its mask or its session bring ATTN up to date
(`attentionSound_eventsKeep`). -/
theorem stepKeepsAttentionSound : Obligations.StepKeepsAttentionSound :=
  fun s t h ran q => (attentionSound_eventsKeep q).step s t (h q) ran

end Sys2Proof.Machine
end

section
/-! The Partition Unit: what an installation, an abandonment and a departure make of its items (R158 to R161), and that
every step keeps the installed record valid and the open proposal sound. -/

namespace Sys2Proof.Machine

/-! ### The items of the Partition Unit -/

@[simp] theorem State.install_partition (s : State) (n : Half) (r : PartitionRecord) :
    (s.install n r).partition = { s.partition with
      installed := r, recordNumber := n, proposal := none, lastOutcome := some (.installed n) } := by
  simp [State.install]

@[simp] theorem State.abandon_partition (s : State) (o : Proposal) : (s.abandon o).partition =
    { s.partition with proposal := none, lastOutcome := some (.abandoned o.number) } := by
  simp [State.abandon]

theorem State.settleProposal_partition (s : State) (o : Proposal) : (s.settleProposal o).partition =
    if o.endorsed = o.required then { s.partition with
      installed := o.record, recordNumber := o.number, proposal := none,
      lastOutcome := some (.installed o.number) }
    else { s.partition with proposal := some o } := by
  unfold State.settleProposal
  split <;> simp

/-- A departure does to the Partition Unit what R158 says, case by case. -/
theorem State.departActive_departed {s u : State} (p : Station) (hu : u.partition = s.partition) :
    Departed s (u.departActive p) p where
  none h := by simp [State.departActive, hu, h]
  proposer o h hp := by simp [State.departActive, hu, h, hp]
  last o h hp required complete := by
    simp [State.departActive, hu, h, hp, required, State.settleProposal_partition, complete]
  removed o h hp required incomplete := by
    simp [State.departActive, hu, h, hp, required, State.settleProposal_partition, incomplete]
  neither o h hp other := by simp [State.departActive, hu, h, hp, other]

theorem Departed.to_eq {s t u : State} {p : Station} (d : Departed s t p)
    (h : u.partition = t.partition) : Departed s u p where
  none e := h.trans (d.none e)
  proposer o e hp := h.trans (d.proposer o e hp)
  last o e hp hr hc := h.trans (d.last o e hp hr hc)
  removed o e hp hr hc := h.trans (d.removed o e hp hr hc)
  neither o e hp hr := h.trans (d.neither o e hp hr)

theorem State.propose_partition (s : State) (p : Station) (r : PartitionRecord) :
    (s.propose p r).partition =
      if s.requiredFor p = 0 then { s.partition with
        installed := r, recordNumber := nextProposalNumber s.partition.counter, proposal := none,
        counter := nextProposalNumber s.partition.counter,
        lastOutcome := some (.installed (nextProposalNumber s.partition.counter)) }
      else { s.partition with
        counter := nextProposalNumber s.partition.counter, proposal := some (s.newProposal p r) } := by
  unfold State.propose
  dsimp only [State.newProposal]
  split <;> simp [State.advanceCounter]

/-! ### The numbers of proposals (R153) -/

theorem nextProposalNumber_ne_zero (c : Half) : nextProposalNumber c ≠ 0 := by
  unfold nextProposalNumber
  split
  · decide
  · next h => bv_omega

/-! ### Soundness of the installed record and of the open proposal -/

namespace PartitionSound

variable {s t : State} {p : Station}

/-- The invariant is about the Partition Unit and about who is ACTIVE; a station that becomes ACTIVE does no harm. -/
theorem mono (h : PartitionSound s) (hp : t.partition = s.partition)
    (ha : ∀ q, s.isActive q = true → t.isActive q = true) : PartitionSound t := by
  refine ⟨by rw [hp]; exact h.1, fun o ho => ?_⟩
  have sound := h.2 o (by rw [← hp]; exact ho)
  exact { sound with
    required := fun q hq => ha q (sound.required q hq)
    proposer := ha _ sound.proposer
    number := by rw [hp]; exact sound.number }

theorem of_keeps (h : PartitionSound s) (hp : t.partition = s.partition)
    (hs : t.sessions = s.sessions) : PartitionSound t :=
  h.mono hp fun q hq => by simpa [State.isActive, State.session, hs] using hq

/-- With no proposal open, the installed record is all there is. -/
theorem closed (hv : recordValid t.partition.installed = true) (hn : t.partition.proposal = none) :
    PartitionSound t :=
  ⟨hv, fun o ho => by simp [hn] at ho⟩

/-- An open proposal with stations added to its endorsed set or a station taken out of both sets is still sound, unless
the sets are the same. -/
theorem reopened {o o' : Proposal} (h : PartitionSound s)
    (ht : t.partition = { s.partition with proposal := some o' }) (sound : ProposalSound s o)
    (same : o' = { o with required := o'.required, endorsed := o'.endorsed })
    (proposer : t.isActive o.proposer = true)
    (required : ∀ q, inSet o'.required q = true → inSet o.required q = true ∧ t.isActive q = true)
    (endorsed : ∀ q, inSet o'.endorsed q = true → inSet o'.required q = true)
    (incomplete : o'.endorsed ≠ o'.required) : PartitionSound t := by
  refine ⟨by rw [ht]; exact h.1, fun v hv => ?_⟩
  rw [ht] at hv
  cases hv
  have unrequired : inSet o'.required o.proposer = false := by
    rw [Bool.eq_false_iff]
    exact fun r => absurd (required _ r).1 (by simp [sound.notRequired])
  rw [same]
  exact {
    valid := sound.valid
    required := fun q hq => (required q hq).2
    endorsed := endorsed
    incomplete := incomplete
    proposer := proposer
    notRequired := unrequired
    number := by rw [ht]; exact sound.number
    numbered := sound.numbered }

/-- The departure of a station leaves the Partition Unit sound, if no other station left the ACTIVE ones. -/
theorem departed (h : PartitionSound s) (d : Departed s t p)
    (others : ∀ q, q ≠ p → s.isActive q = true → t.isActive q = true) : PartitionSound t := by
  cases hs : s.partition.proposal with
  | none =>
    have kept := d.none hs
    exact closed (by rw [kept]; exact h.1) (by rw [kept]; exact hs)
  | some o =>
    have sound := h.2 o hs
    by_cases hp : o.proposer = p
    · have abandoned := d.proposer o hs hp
      exact closed (by rw [abandoned]; exact h.1) (by rw [abandoned])
    have proposer := others _ hp sound.proposer
    cases required : inSet o.required p with
    | false =>
      have kept := d.neither o hs hp required
      refine ⟨by rw [kept]; exact h.1, fun v hv => ?_⟩
      rw [kept, hs] at hv
      cases hv
      exact { sound with
        required := fun q hq => others q (fun e => by simp [e, required] at hq) (sound.required q hq)
        proposer := proposer
        number := by rw [kept]; exact sound.number }
    | true =>
      by_cases complete : eraseStation o.endorsed p = eraseStation o.required p
      · have installed := d.last o hs hp required complete
        exact closed (by rw [installed]; exact sound.valid) (by rw [installed])
      · refine h.reopened (d.removed o hs hp required complete) sound rfl proposer (fun q hq => ?_)
          (fun q hq => ?_) complete
        · simp only [inSet_erase, Bool.and_eq_true, Bool.not_eq_true', decide_eq_false_iff_not] at hq
          exact ⟨hq.1, others q (fun e => hq.2 e.symm) (sound.required q hq.1)⟩
        · simp only [inSet_erase, Bool.and_eq_true] at hq ⊢
          exact ⟨sound.endorsed q hq.1, hq.2⟩

theorem settled {o : Proposal} (h : PartitionSound s) (opened : s.partition.proposal = some o)
    (required : inSet o.required p = true) :
    PartitionSound (s.settleProposal { o with endorsed := insertStation o.endorsed p }) := by
  have sound := h.2 o opened
  have items := s.settleProposal_partition { o with endorsed := insertStation o.endorsed p }
  by_cases complete : insertStation o.endorsed p = o.required
  · rw [if_pos complete] at items
    exact closed (by rw [items]; exact sound.valid) (by rw [items])
  · rw [if_neg complete] at items
    have active : ∀ q, s.isActive q = true →
        (s.settleProposal { o with endorsed := insertStation o.endorsed p }).isActive q = true :=
      fun q hq => by simpa [State.isActive, State.session] using hq
    refine h.reopened items sound rfl (active _ sound.proposer)
      (fun q hq => ⟨hq, active q (sound.required q hq)⟩) (fun q hq => ?_) complete
    simp only [inSet_insert, Bool.or_eq_true, decide_eq_true_eq] at hq
    rcases hq with hq | rfl
    · exact sound.endorsed q hq
    · exact required

theorem proposed {r : PartitionRecord} (h : PartitionSound s) (active : (s.session p).state = .active)
    (valid : recordValid r = true) : PartitionSound (s.propose p r) := by
  have items := s.propose_partition p r
  by_cases alone : s.requiredFor p = 0
  · rw [if_pos alone] at items
    exact closed (by rw [items]; exact valid) (by rw [items])
  · rw [if_neg alone] at items
    refine ⟨by rw [items]; exact h.1, fun o ho => ?_⟩
    rw [items] at ho
    cases ho
    exact {
      valid := valid
      required := fun q hq => by
        simp only [State.newProposal, State.requiredFor, inSet_stationsWhere, Bool.and_eq_true] at hq
        simpa [State.isActive, State.session] using hq.1
      endorsed := fun q hq => by simp [State.newProposal] at hq
      incomplete := fun e => alone e.symm
      proposer := by simpa [State.newProposal, State.isActive, State.session] using active
      notRequired := by simp [State.newProposal, State.requiredFor]
      number := by rw [items]; rfl
      numbered := nextProposalNumber_ne_zero _ }

/-- The teardown of a session is a departure from the ACTIVE stations. -/
theorem teardown (h : PartitionSound s) : PartitionSound (s.teardown p) := by
  refine h.departed ((State.departActive_departed p (s := s) (u := ((s.dropStationHolds p).retireOwned p).goOffline p)
    (by simp)).to_eq (by simp [State.teardown])) fun q hq active => ?_
  have sessions : (s.teardown p).sessions = (((s.dropStationHolds p).retireOwned p).goOffline p).sessions := by
    simp [State.teardown]
  simpa [State.isActive, State.session, sessions, State.goOffline, hq] using active

/-- The effect of a command keeps the Partition Unit sound. -/
theorem effect {u : State} {r : Option ReadStream} (h : PartitionSound s) (e : Effect s p u r) :
    PartitionSound u := by
  have closes : ∀ {v}, PartitionSound v → PartitionSound (State.closeEvent s v) := fun hv =>
    hv.of_keeps (by simp) (by simp)
  cases e with
  | nothing => exact h
  | join offline =>
    refine h.mono (by simp) fun q hq => ?_
    by_cases e : q = p
    · subst e; simp [State.isActive, State.session] at hq offline; simp [hq] at offline
    · simpa [State.isActive, State.session, State.startSession, Per.get_set, e] using hq
  | leave => exact closes h.teardown
  | suspend =>
    refine closes (h.departed (State.departActive_departed p (by simp)) fun q hq active => ?_)
    simpa [State.isActive, State.session, Per.get_set, hq] using active
  | resume =>
    refine h.mono (by simp) fun q hq => ?_
    by_cases e : q = p
    · subst e; simp [State.isActive, State.session]
    · simpa [State.isActive, State.session, Per.get_set, e] using hq
  | setaccept =>
    refine h.mono (by simp) fun q hq => ?_
    by_cases e : q = p
    · subst e; simpa [State.isActive, State.session] using hq
    · simpa [State.isActive, State.session, Per.get_set, e] using hq
  | propose active record unopened valid => exact closes (h.proposed active valid)
  | endorse active o opened required => exact closes (h.settled opened required)
  | object => exact closed (by simpa using h.1) (by simp)
  | rxrelease | txopen | cancelBuild | cancelPost => exact closes (h.of_keeps (by simp) (by simp))
  | claim | draft | publish | disable | retire | rxread | txwrite | txpost | txdone =>
    exact h.of_keeps (by simp) (by simp)
  | events | setmask | snapshot => exact h.of_keeps rfl rfl

end PartitionSound

theorem partitionSound_eventsKeep : EventsKeep PartitionSound where
  quiet _ _ _ h := h.of_keeps rfl rfl
  port _ _ _ h _ := h.of_keeps (by simp) (by simp)
  effect _ _ _ _ _ h e _ _ _ := (h.effect e).of_keeps (by simp) (by simp)
  rise _ _ _ h _ _ := h.of_keeps (by simp) (by simp)
  lastByte _ _ _ _ h _ _ := h.of_keeps (by simp) (by simp)
  presentFall p s h _ := by
    have abandoned : PartitionSound ((s.setPresent p false).setPort p
        ((s.setPresent p false).ports.get p).abandon) := h.of_keeps (by simp) (by simp)
    exact (abandoned.teardown (p := p)).of_keeps (by simp [State.endSession]) (by simp [State.endSession])
  present _ _ _ h _ := h.of_keeps (by simp) (by simp)
  deviceReset _ _ ran _ := by
    have valid : recordValid defaultRecord = true := by decide
    cases ran
    exact PartitionSound.closed valid rfl
  phyInputChange _ _ _ h := h.of_keeps (by simp) (by simp)
  speedChange _ _ h := h.of_keeps (by simp) (by simp)
  linkInputCompare _ h := h.of_keeps (by simp) (by simp)
  frameStart _ _ h _ _ := h.of_keeps (by simp) (by simp)
  byteArrival _ _ _ h _ := h.of_keeps (by simp) (by simp)
  frameEnd _ _ _ h _ := h.of_keeps (by simp) (by simp)
  skipped _ h _ := h.of_keeps (by simp) (by simp)
  transmissionComplete _ _ _ _ h _ := h.of_keeps (by simp) (by simp)
  flowControlComplete _ _ _ h _ := h.of_keeps (by simp) (by simp)
  pauseTimerExpiry _ _ h _ := h.of_keeps (by simp) (by simp)
  refreshTimerExpiry _ _ _ _ h _ _ := h.of_keeps (by simp) (by simp)
  holdLimitExpiry _ _ _ h _ := h.of_keeps (by simp) (by simp)
  proposalExpiry _ _ h _ := PartitionSound.closed (by simpa using h.1) (by simp)

/-- Settles O58: the proposal is opened, endorsed, thinned out by a departure, or ended, and nothing else touches it. -/
theorem stepKeepsPartitionSound : Obligations.StepKeepsPartitionSound :=
  partitionSound_eventsKeep.step

end Sys2Proof.Machine
end

section
/-! The frame records after each operation: every operation that takes holds off the frames leaves the rest of each record
as it was, and which holds it takes. -/

namespace Sys2Proof.Machine

/-! ### Operations that leave the frame table alone -/

/-- The frame table does not see what stands beside the store. -/
@[simp] theorem State.frame_beside (s : State) (clock : Clock) (pins : Pins) (table : SteeringTable)
    (sequence : Word) (sessions : Per Session) (intake : Per (List IntakeEntry)) (posts : Per PostPath)
    (scheduler : Scheduler) (mac : Mac) (partition : PartitionUnit) (attention : Per Attention)
    (linkCounters : LinkCounters) (stationCounters : Per StationCounters) (ports : Per Port)
    (pending : List Instr) (k : Handle) :
    (State.mk clock pins s.store table sequence sessions intake posts scheduler mac partition attention
      linkCounters stationCounters ports pending).frame k = s.frame k := rfl

@[simp] theorem State.containPost_frame (s : State) (p : Station) (h : Handle) (n : Nat) (k : Handle) :
    (s.containPost p h n).frame k = s.frame k := State.frame_of_frames (by simp) k

@[simp] theorem State.setPhy_frame (s : State) (i : PhyInput) (v : Bool) (k : Handle) :
    (s.setPhy i v).frame k = s.frame k := State.frame_of_frames (by simp) k

@[simp] theorem State.advanceCounter_frame (s : State) (k : Handle) :
    s.advanceCounter.frame k = s.frame k := State.frame_of_frames (by simp) k

@[simp] theorem State.setPresent_frame (s : State) (p : Station) (v : Bool) (k : Handle) :
    (s.setPresent p v).frame k = s.frame k := State.frame_of_frames (by simp) k

@[simp] theorem State.startSession_frame (s : State) (p : Station) (k : Handle) :
    (s.startSession p).frame k = s.frame k := State.frame_of_frames (by simp) k

@[simp] theorem State.publish_frame (s : State) (p : Station) (i : EntryIndex) (c : Contents) (k : Handle) :
    (s.publish p i c).frame k = s.frame k := State.frame_of_frames (by simp) k

@[simp] theorem State.disable_frame (s : State) (i : EntryIndex) (k : Handle) :
    (s.disable i).frame k = s.frame k := State.frame_of_frames (by simp) k

@[simp] theorem State.retire_frame (s : State) (p : Station) (i : EntryIndex) (k : Handle) :
    (s.retire p i).frame k = s.frame k := State.frame_of_frames (by simp) k

/-! ### Holds of one kind taken off one frame -/

/-- Holds taken off one frame by a function. -/
theorem State.removeHold_frame (s : State) (h : Handle) (g : Holds → Holds) (k : Handle) :
    (s.modifyFrame h fun f => f.removeHold g).frame k =
      { s.frame k with holds := if k = h then g (s.frame k).holds else (s.frame k).holds } := by
  rw [State.modifyFrame_frame]
  split
  · next e => subst e; rfl
  · rfl

@[simp] theorem State.removeEntry_frame (s : State) (p : Station) (h k : Handle) :
    (s.removeEntry p h).frame k = { s.frame k with holds := { (s.frame k).holds with
      intake := if k = h then eraseStation (s.frame k).holds.intake p else (s.frame k).holds.intake } } := by
  rw [State.removeEntry, State.removeHold_frame, State.setIntake_frame]
  split <;> rfl

@[simp] theorem State.dropReadHold_frame (s : State) (p : Station) (k : Handle) :
    (s.dropReadHold p).frame k = { s.frame k with holds := { (s.frame k).holds with
      read := if (s.ports.get p).reading.map (·.handle) = some k
        then eraseStation (s.frame k).holds.read p else (s.frame k).holds.read } } := by
  unfold State.dropReadHold
  split
  · next e => simp [e]
  · next r e =>
    rw [State.removeHold_frame, e]
    simp only [Option.map_some, Option.some.injEq, eq_comm (a := r.handle)]
    split <;> rfl

@[simp] theorem State.dropBuildHold_frame (s : State) (p : Station) (h k : Handle) :
    (s.dropBuildHold p h).frame k = { s.frame k with holds := { (s.frame k).holds with
      build := if k = h then eraseStation (s.frame k).holds.build p else (s.frame k).holds.build } } := by
  rw [State.dropBuildHold, State.removeHold_frame]
  split <;> rfl

@[simp] theorem State.dropPostHold_frame (s : State) (p : Station) (h k : Handle) :
    (s.dropPostHold p h).frame k = { s.frame k with holds := { (s.frame k).holds with
      post := if k = h then eraseStation (s.frame k).holds.post p else (s.frame k).holds.post } } := by
  rw [State.dropPostHold, State.removeHold_frame]
  split <;> rfl

@[simp] theorem State.dropFillHold_frame (s : State) (h k : Handle) :
    (s.dropFillHold h).frame k = { s.frame k with holds := { (s.frame k).holds with
      fill := if k = h then false else (s.frame k).holds.fill } } := by
  rw [State.dropFillHold, State.removeHold_frame]
  split <;> rfl

@[simp] theorem State.endTransmission_frame (s : State) (p : Station) (h k : Handle) :
    (s.endTransmission p h).frame k = { s.frame k with holds := { (s.frame k).holds with
      post := if k = h then eraseStation (s.frame k).holds.post p else (s.frame k).holds.post,
      wire := if k = h then false else (s.frame k).holds.wire } } := by
  refine (State.frame_of_frames rfl k).trans ((s.removeHold_frame h
    (fun x => { x with post := eraseStation x.post p, wire := false }) k).trans ?_)
  split <;> rfl

@[simp] theorem State.dropStationHolds_frame (s : State) (p : Station) (k : Handle) :
    (s.dropStationHolds p).frame k =
      { s.frame k with holds := (s.frame k).holds.withoutStation p } := by
  unfold State.dropStationHolds
  rw [State.mapFrames_frame]
  simp [Frame.removeHold]

@[simp] theorem State.releaseRead_frame (s : State) (p : Station) (r : ReadStream) (k : Handle) :
    (s.releaseRead p r).frame k = { s.frame k with holds := { (s.frame k).holds with
      intake := if s.releasesAtEnd r ∧ (findIntake (s.intake.get p) r.handle).isSome ∧ k = r.handle
        then eraseStation (s.frame k).holds.intake p else (s.frame k).holds.intake } } := by
  unfold State.releaseRead
  split
  · next e => simp [e]
  · next e =>
    rw [if_neg (by tauto)]

@[simp] theorem State.discardFrame_frame (s : State) (h : Handle) (c : LinkCounter) (k : Handle) :
    (s.discardFrame h c).frame k = { s.frame k with holds := { (s.frame k).holds with
      fill := if k = h then false else (s.frame k).holds.fill } } := by
  simp [State.discardFrame]

@[simp] theorem State.cancelPost_frame (s : State) (p : Station) (e : PostEntry) (k : Handle) :
    (s.cancelPost p e).frame k = { s.frame k with holds := { (s.frame k).holds with
      post := if k = e.handle then eraseStation (s.frame k).holds.post p
        else (s.frame k).holds.post } } := by
  simp [State.cancelPost]

@[simp] theorem State.sendEnded_frame (s : State) (p : Station) (h k : Handle) :
    (s.sendEnded p h).frame k = { s.frame k with holds := { (s.frame k).holds with
      post := if k = h then eraseStation (s.frame k).holds.post p else (s.frame k).holds.post,
      wire := if k = h then false else (s.frame k).holds.wire } } := by
  simp [State.sendEnded]

/-! ### The hold limit, and what ends a proposal (R106, R108, R158) -/

/-- The front entries that expire are the first ones of the queue, as many as are counted. -/
theorem expiredFront_eq_take (q : List IntakeEntry) (limit : Half) (now : Nat) :
    expiredFront q limit now = q.take (expiredCount q limit now) :=
  List.prefix_iff_eq_take.mp (List.takeWhile_prefix _)

/-- The number of front entries of a station that expire under the installed hold limit. -/
def State.expiring (s : State) (p : Station) : Nat :=
  expiredCount (s.intake.get p) s.partition.installed.holdLimit s.clock.now

theorem State.expiredFront_eq (s : State) (p : Station) :
    expiredFront (s.intake.get p) s.partition.installed.holdLimit s.clock.now =
      (s.intake.get p).take (s.expiring p) := expiredFront_eq_take _ _ _

theorem State.expiring_le (s : State) (p : Station) : s.expiring p ≤ (s.intake.get p).length :=
  (List.takeWhile_prefix _).length_le

@[simp] theorem State.dropIntakeHolds_frame (s : State) (p : Station) (gone : List IntakeEntry) (k : Handle) :
    (s.dropIntakeHolds p gone).frame k = { s.frame k with holds := { (s.frame k).holds with
      intake := if ∃ e ∈ gone, e.handle = k then eraseStation (s.frame k).holds.intake p
        else (s.frame k).holds.intake } } := by
  unfold State.dropIntakeHolds
  rw [State.mapFrames_frame]
  have named : (gone.map fun e => e.handle.val).contains k.val = true ↔ ∃ e ∈ gone, e.handle = k := by
    simp [Fin.ext_iff]
  simp only [named]
  split <;> rfl

/-- The expiry of a queue, in one form whether or not an entry expires: the entries taken off, their holds, and the
count. -/
theorem State.expireQueue_eq (s : State) (p : Station) : s.expireQueue p =
    if s.expiring p = 0 then s
    else (((s.setIntake p ((s.intake.get p).drop (s.expiring p))).dropIntakeHolds p
      ((s.intake.get p).take (s.expiring p))).countStation p .expired (s.expiring p)).raiseFlag
        .expired p := by
  have front := s.expiredFront_eq p
  have length : (expiredFront (s.intake.get p) s.partition.installed.holdLimit s.clock.now).length =
      s.expiring p := rfl
  unfold State.expireQueue
  split
  · next none =>
    rw [if_pos (by rw [← length, none]; rfl)]
  · next e more some =>
    rw [some] at length front
    simp only [List.length_cons] at length
    rw [if_neg (by omega), ← front, ← length]

@[simp] theorem State.expireQueue_frame (s : State) (p : Station) (k : Handle) :
    (s.expireQueue p).frame k = { s.frame k with holds := { (s.frame k).holds with
      intake := if ∃ e ∈ (s.intake.get p).take (s.expiring p), e.handle = k
        then eraseStation (s.frame k).holds.intake p else (s.frame k).holds.intake } } := by
  rw [State.expireQueue_eq]
  split
  · next none => simp [none]
  · simp

@[simp] theorem State.expireQueue_intake (s : State) (p : Station) :
    (s.expireQueue p).intake = s.intake.set p ((s.intake.get p).drop (s.expiring p)) := by
  rw [State.expireQueue_eq]
  split
  · next none => simp [none]
  · simp

@[simp] theorem State.expireQueue_stationCounters (s : State) (p : Station) :
    (s.expireQueue p).stationCounters = s.stationCounters.set p { s.stationCounters.get p with
      expired := satAdd (s.stationCounters.get p).expired (s.expiring p) } := by
  rw [State.expireQueue_eq]
  split
  · next none =>
    rw [none, satAdd_zero]
    exact (Per.set_get _ _).symm
  · simp [StationCounters.set, StationCounters.get]

/-- The expiry of one queue leaves the number of entries that expire of another. -/
theorem State.expireQueue_expiring (s : State) {p q : Station} (other : q ≠ p) :
    (s.expireQueue p).expiring q = s.expiring q := by
  simp [State.expiring, Per.get_set, other]

theorem inSet_erase_if {x : StationSet} {p q : Station} {c : Prop} [Decidable c] :
    inSet (if c then eraseStation x p else x) q = true ↔ inSet x q = true ∧ ¬ (p = q ∧ c) := by
  by_cases h : c <;> simp [h, inSet_erase]

theorem expiredAt_pos {s : State} {r : PartitionRecord} {q : Station} (h : 0 < expiredAt s r q) :
    r.holdLimit ≠ s.partition.installed.holdLimit ∧ r.holdLimit ≠ 0 := by
  unfold expiredAt at h
  split at h
  · assumption
  · omega

/-- The hub with an installed record written, before the hold limit of the record is acted on. -/
def State.written (s : State) (n : Half) (r : PartitionRecord) : State :=
  { s with partition := { s.partition with
      installed := r, recordNumber := n, proposal := none, lastOutcome := some (.installed n) } }

theorem State.install_eq (s : State) (n : Half) (r : PartitionRecord) : s.install n r =
    ((s.written n r).expireAtInstallation s.partition.installed.holdLimit).raiseFlagEverywhere
      .partition := rfl

/-- The expiries of an installation at all four stations, one after another. -/
theorem State.expireAtInstallation_written (s : State) (n : Half) (r : PartitionRecord) :
    (s.written n r).expireAtInstallation s.partition.installed.holdLimit =
      if r.holdLimit ≠ s.partition.installed.holdLimit ∧ r.holdLimit ≠ 0 then
        ((((s.written n r).expireQueue .s0).expireQueue .s1).expireQueue .s2).expireQueue .s3
      else s.written n r := by
  unfold State.expireAtInstallation
  show (if r.holdLimit = _ ∨ r.holdLimit = 0 then _ else _) = _
  by_cases same : r.holdLimit = s.partition.installed.holdLimit <;>
    by_cases zero : r.holdLimit = 0 <;> simp [same, zero, Station.all]

theorem expiredAt_eq {s : State} {n : Half} {r : PartitionRecord} (q : Station)
    (h : r.holdLimit ≠ s.partition.installed.holdLimit ∧ r.holdLimit ≠ 0) :
    expiredAt s r q = (s.written n r).expiring q := by
  rw [expiredAt, if_pos h]; rfl

theorem expiredAt_eq_zero {s : State} {r : PartitionRecord} (q : Station)
    (h : ¬ (r.holdLimit ≠ s.partition.installed.holdLimit ∧ r.holdLimit ≠ 0)) :
    expiredAt s r q = 0 := by
  rw [expiredAt, if_neg h]

@[simp] theorem inSet_losers (s : State) (gone : Station → Nat) (h : Handle) (q : Station) :
    inSet (losers s gone h) q = decide (∃ e ∈ (s.intake.get q).take (gone q), e.handle = h) := by
  rw [losers, inSet_stationsWhere, Bool.eq_iff_iff]
  simp

theorem and_not_empty (x : StationSet) : x &&& ~~~ 0 = x := set_ext fun q => by
  rw [inSet_and, inSet_not, show inSet 0 q = false from inSet_empty q, Bool.not_false, Bool.and_true]

@[simp] theorem losers_none (s : State) (h : Handle) : losers s (fun _ => 0) h = 0 :=
  set_ext fun q => by simp

@[simp] theorem State.install_frame (s : State) (n : Half) (r : PartitionRecord) (k : Handle) :
    (s.install n r).frame k = { s.frame k with holds := { (s.frame k).holds with
      intake := (s.frame k).holds.intake &&& ~~~ losers s (expiredAt s r) k } } := by
  rw [State.install_eq, State.raiseFlagEverywhere_frame, State.expireAtInstallation_written]
  split
  · next h =>
    have e := fun q => expiredAt_eq (n := n) q h
    simp only [State.expireQueue_frame, State.expireQueue_intake, Per.get_set, reduceCtorEq, if_false,
      State.expireQueue_expiring, ne_eq, not_false_eq_true, ← e]
    congr 2
    refine set_ext fun q => ?_
    rw [Bool.eq_iff_iff, inSet_erase_if, inSet_erase_if, inSet_erase_if, inSet_erase_if]
    cases q <;> simp [State.written]
  · next h =>
    have e : expiredAt s r = fun _ => 0 := funext fun q => expiredAt_eq_zero q h
    rw [e, losers_none, and_not_empty]
    rfl

/-- The number of front entries of a station that the settlement of a proposal expires. -/
def settlementExpires (s : State) (o : Proposal) (q : Station) : Nat :=
  if o.endorsed = o.required then expiredAt s o.record q else 0

@[simp] theorem State.settleProposal_frame (s : State) (o : Proposal) (k : Handle) :
    (s.settleProposal o).frame k = { s.frame k with holds := { (s.frame k).holds with
      intake := (s.frame k).holds.intake &&& ~~~ losers s (settlementExpires s o) k } } := by
  unfold State.settleProposal settlementExpires
  split
  · exact s.install_frame _ _ k
  · rw [losers_none, and_not_empty]; rfl

/-- The number of front entries of a station that the departure of a station expires, when no queue is emptied
before. -/
def departingExpires (s : State) (p q : Station) : Nat :=
  match departureInstalls s p with
  | some record => expiredAt s record q
  | none => 0

@[simp] theorem State.departActive_frame (s : State) (p : Station) (k : Handle) :
    (s.departActive p).frame k = { s.frame k with holds := { (s.frame k).holds with
      intake := (s.frame k).holds.intake &&& ~~~ losers s (departingExpires s p) k } } := by
  have none : departureInstalls s p = .none → departingExpires s p = fun _ => 0 := fun h =>
    funext fun q => by rw [departingExpires, h]
  unfold State.departActive
  split
  · next unopened =>
    rw [none (by simp [departureInstalls, unopened]), losers_none, and_not_empty]
  · next o opened =>
    split
    · next proposer =>
      rw [none (by simp [departureInstalls, opened, proposer]), losers_none, and_not_empty,
        State.abandon_frame]
    · next other =>
      split
      · next required =>
        rw [State.settleProposal_frame]
        have e : settlementExpires s { o with
            required := eraseStation o.required p, endorsed := eraseStation o.endorsed p } =
            departingExpires s p := funext fun q => by
          by_cases complete : eraseStation o.endorsed p = eraseStation o.required p <;>
            simp [settlementExpires, departingExpires, departureInstalls, opened, other, required, complete]
        rw [e]
      · next unconcerned =>
        rw [none (by simp [departureInstalls, opened, unconcerned]), losers_none, and_not_empty]

@[simp] theorem State.propose_frame (s : State) (p : Station) (r : PartitionRecord) (k : Handle) :
    (s.propose p r).frame k = { s.frame k with holds := { (s.frame k).holds with
      intake := (s.frame k).holds.intake &&& ~~~ losers s
        (fun q => if s.requiredFor p = 0 then expiredAt s r q else 0) k } } := by
  unfold State.propose
  dsimp only [State.newProposal]
  split
  · exact State.install_frame _ _ _ k
  · rw [losers_none, and_not_empty, State.raiseFlagAt_frame]
    rfl

/-! ### The teardown (Table 4-5) -/

/-- The hub as the teardown hands it to the departure: nothing of the station's own is left but its scheduler state and
its flags. -/
def State.offline (s : State) (p : Station) : State := ((s.dropStationHolds p).retireOwned p).goOffline p

theorem State.teardown_eq (s : State) (p : Station) :
    s.teardown p = (((s.offline p).departActive p).clearScheduler p).clearAttention p := rfl

@[simp] theorem State.offline_keeps (s : State) (p : Station) :
    (s.offline p).clock = s.clock ∧ (s.offline p).pins = s.pins ∧
    (s.offline p).store.mem = s.store.mem ∧ (s.offline p).store.freeList = s.store.freeList ∧
    (s.offline p).sequence = s.sequence ∧ (s.offline p).scheduler = s.scheduler ∧
    (s.offline p).mac = s.mac ∧ (s.offline p).partition = s.partition ∧
    (s.offline p).linkCounters = s.linkCounters ∧
    (s.offline p).stationCounters = s.stationCounters ∧ (s.offline p).ports = s.ports ∧
    (s.offline p).pending = s.pending := by
  simp [State.offline]

@[simp] theorem State.offline_frame (s : State) (p : Station) (k : Handle) :
    (s.offline p).frame k = { s.frame k with holds := (s.frame k).holds.withoutStation p } := by
  simp [State.offline]

@[simp] theorem State.offline_intake (s : State) (p : Station) :
    (s.offline p).intake = s.intake.set p [] := by
  unfold State.offline
  rw [(State.goOffline_keeps _ _).2.2.2.2.2.1, (State.retireOwned_keeps _ _).2.2.2.2.2.1]
  rfl

theorem expiredAt_offline (s : State) (r : PartitionRecord) (p q : Station) :
    expiredAt (s.offline p) r q = if q = p then 0 else expiredAt s r q := by
  by_cases e : q = p
  · simp [expiredAt, e, expiredCount]
  · simp [expiredAt, Per.get_set, e]

theorem departingExpires_offline (s : State) (p : Station) :
    departingExpires (s.offline p) p = departureExpires s p := funext fun q => by
  have same : departureInstalls (s.offline p) p = departureInstalls s p := by simp [departureInstalls]
  unfold departingExpires departureExpires
  rw [same]
  cases departureInstalls s p with
  | none => rfl
  | some r => exact expiredAt_offline s r p q

theorem losers_offline (s : State) (p : Station) (k : Handle) :
    losers (s.offline p) (departureExpires s p) k = losers s (departureExpires s p) k := by
  refine set_ext fun q => ?_
  rw [inSet_losers, inSet_losers, Bool.eq_iff_iff]
  by_cases e : q = p
  · have none : departureExpires s p p = 0 := by unfold departureExpires; split <;> simp
    simp [e, none]
  · simp [Per.get_set, e]

@[simp] theorem State.teardown_frame (s : State) (p : Station) (k : Handle) :
    (s.teardown p).frame k = { s.frame k with holds := { (s.frame k).holds.withoutStation p with
      intake := eraseStation (s.frame k).holds.intake p &&& ~~~ losers s (departureExpires s p) k } } := by
  simp only [State.teardown_eq, State.clearAttention_frame, State.clearScheduler_frame,
    State.departActive_frame, State.offline_frame, departingExpires_offline, losers_offline]
  rfl

@[simp] theorem State.endSession_frame (s : State) (p : Station) (k : Handle) :
    (s.endSession p).frame k = { s.frame k with holds := { (s.frame k).holds.withoutStation p with
      intake := eraseStation (s.frame k).holds.intake p &&& ~~~ losers s (departureExpires s p) k } } := by
  rw [State.endSession, State.teardown_frame]
  simp [losers, departureExpires, departureInstalls, expiredAt]

/-! ### The move to DOWN (R136) -/

@[simp] theorem State.cutReception_frame (s : State) (k : Handle) :
    s.cutReception.frame k = { s.frame k with holds := { (s.frame k).holds with
      fill := if s.mac.receiver = .storing k then false else (s.frame k).holds.fill } } := by
  unfold State.cutReception
  split
  · next idle => simp [idle]
  · next h storing =>
    rw [State.discardFrame_frame, storing]
    simp only [Receiver.storing.injEq, eq_comm (a := h)]
  · next skipping => simp [skipping]

/-- Whether the transmitter sends the frame of a handle for a station. -/
def Transmitter.sends (v : Transmitter) (p : Station) (h : Handle) : Prop := ∃ e, v = .station p h e

theorem State.loseTransmission_frame (s : State) (k : Handle) :
    s.loseTransmission.frame k = match s.mac.tx with
      | .station p h _ => if h = k then { s.frame k with holds := { (s.frame k).holds with
          post := eraseStation (s.frame k).holds.post p, wire := false } } else s.frame k
      | _ => s.frame k := by
  unfold State.loseTransmission
  cases sending : s.mac.tx with
  | idle => rfl
  | flow => rfl
  | station p h e =>
    simp only [State.endTransmission_frame, State.countLink_frame, State.reportEnd_frame]
    by_cases same : h = k
    · simp only [same, if_true]
    · simp only [same, Ne.symm same, if_false]

theorem State.cutReception_mac (s : State) :
    s.cutReception.mac = { s.mac with receiver := .idle } := by
  unfold State.cutReception
  split
  · next idle => rw [← idle]
  · simp [State.discardFrame, State.setReceiver]
  · rfl

theorem State.loseTransmission_mac (s : State) :
    s.loseTransmission.mac = { s.mac with tx := .idle } := by
  unfold State.loseTransmission
  split
  · next idle => rw [← idle]
  · simp [State.endTransmission]
  · rfl

/-- The Link MAC after a move to DOWN (R136). -/
@[simp] theorem State.moveDown_mac (s : State) : s.moveDown.mac = { s.mac with
    link := .down, receiver := .idle, tx := .idle, pauseUntil := none, gen := .clear } := by
  unfold State.moveDown
  rw [(State.raiseFlagEverywhere_keeps _ _).2.2.2.2.2.2.2.2.2.1, State.loseTransmission_mac, State.cutReception_mac]
  rfl

@[simp] theorem State.moveDown_frame (s : State) (k : Handle) :
    s.moveDown.frame k = { s.frame k with holds := leftByDown s k } := by
  have tx : s.takeDown.cutReception.mac.tx = s.mac.tx := by simp
  unfold State.moveDown
  rw [State.raiseFlagEverywhere_frame, State.loseTransmission_frame, State.cutReception_frame,
    State.takeDown_frame, leftByDown, tx]
  show (match s.mac.tx with | .station _ _ _ => _ | _ => _) = _
  cases s.mac.tx with
  | idle => by_cases storing : s.mac.receiver = .storing k <;> simp [storing]
  | flow => by_cases storing : s.mac.receiver = .storing k <;> simp [storing]
  | station p h e =>
    by_cases same : h = k <;> by_cases storing : s.mac.receiver = .storing k <;> simp [same, storing]

end Sys2Proof.Machine
end

section
/-! What the transmitter's taking of work, a classification and an admission make of the hub: the cases of the first, and
the frame records and queues after the other two (R60 to R63, R91 to R95, R126, R127, R142). -/

namespace Sys2Proof.Machine

/-! ### Holds added to one frame -/

@[simp] theorem Frame.addHold_body (f : Frame) (g : Holds → Holds) :
    (f.addHold g).state = f.state ∧ (f.addHold g).origin = f.origin ∧ (f.addHold g).length = f.length ∧
      (f.addHold g).chain = f.chain ∧ (f.addHold g).result = f.result ∧
      (f.addHold g).truncated = f.truncated ∧ (f.addHold g).tooLong = f.tooLong := by
  unfold Frame.addHold
  split <;> simp

theorem Frame.addHold_of_busy {f : Frame} (h : f.state ≠ .free) (g : Holds → Holds) :
    f.addHold g = { f with holds := g f.holds } := if_neg h

/-- A hold added to one frame by a function. -/
theorem State.addHold_frame (s : State) (h : Handle) (g : Holds → Holds) (k : Handle) :
    (s.modifyFrame h fun f => f.addHold g).frame k = { s.frame k with
      holds := if k = h ∧ (s.frame k).state ≠ .free then g (s.frame k).holds else (s.frame k).holds } := by
  rw [State.modifyFrame_frame]
  by_cases same : k = h
  · subst same
    by_cases free : (s.frame k).state = .free
    · rw [Frame.addHold, if_pos free, if_pos rfl, if_neg (by simp [free])]
    · simp only [Frame.addHold, free, if_false, ne_eq, not_false_eq_true, and_self, if_true]
  · simp [same]

@[simp] theorem State.addReadHold_frame (s : State) (p : Station) (h k : Handle) :
    (s.addReadHold p h).frame k = { s.frame k with holds := { (s.frame k).holds with
      read := if k = h ∧ (s.frame k).state ≠ .free then insertStation (s.frame k).holds.read p
        else (s.frame k).holds.read } } := by
  rw [State.addReadHold, State.addHold_frame]
  split <;> rfl

/-! ### The taking of work (R126, R127, R142) -/

/-- An examination chooses a station whose queue is not empty. -/
theorem examine_chosen {weights : Per Nat} {heads : Per (Option Nat)} {p : Station} {w : Scheduler} :
    ∀ (bound empties : Nat) (v : Scheduler), examine weights heads bound empties v = (some p, w) →
      ∃ len, heads.get p = some len := by
  intro bound
  induction bound with
  | zero => intro _ _ h; cases h
  | succ bound ih =>
    intro empties v h
    unfold examine at h
    dsimp only at h
    split at h
    · split at h
      · cases h
      · exact ih _ _ h
    · next len head =>
      split at h
      · cases h; exact ⟨len, head⟩
      · exact ih _ _ h

/-- What the transmitter's taking of work can do, with the premises of each case. -/
inductive Work (s : State) : State → Prop where
  | busy (h : s.mac.link = .down ∨ s.mac.tx ≠ .idle ∨
      (s.mac.gen.pending = none ∧ s.mac.pauseUntil ≠ none)) : Work s s
  | flow (speed : Speed) (quanta : Half) (up : s.mac.link = .up speed) (idle : s.mac.tx = .idle)
    (pending : s.mac.gen.pending = some quanta) : Work s (s.startFlow speed quanta)
  | nothing (v : Scheduler) (idle : s.mac.tx = .idle) (pending : s.mac.gen.pending = none)
    (unpaused : s.mac.pauseUntil = none)
    (examined : examine s.weights s.headLengths examinationBound 0 s.scheduler = (none, v)) :
    Work s { s with scheduler := v }
  | station (speed : Speed) (p : Station) (v : Scheduler) (e : PostEntry) (more : List PostEntry)
    (up : s.mac.link = .up speed) (idle : s.mac.tx = .idle) (pending : s.mac.gen.pending = none)
    (unpaused : s.mac.pauseUntil = none)
    (examined : examine s.weights s.headLengths examinationBound 0 s.scheduler = (some p, v))
    (front : (s.posts.get p).queue = e :: more) :
    Work s (State.startStation { s with scheduler := v } speed p)

/-- The station that an examination chooses has a front post entry. -/
theorem State.examined_front {s : State} {p : Station} {v : Scheduler}
    (h : examine s.weights s.headLengths examinationBound 0 s.scheduler = (some p, v)) :
    ∃ e more, (s.posts.get p).queue = e :: more := by
  obtain ⟨len, head⟩ := examine_chosen _ _ _ h
  rw [State.headLengths, Per.get_of] at head
  cases queue : (s.posts.get p).queue with
  | nil => simp [queue] at head
  | cons e more => exact ⟨e, more, rfl⟩

theorem State.takeWork_work (s : State) : Work s s.takeWork := by
  unfold State.takeWork
  split
  · next speed up idle =>
    split
    · next quanta pending => exact .flow speed quanta up idle pending
    · next pending unpaused =>
      unfold State.askScheduler
      dsimp only
      split
      · next p chosen =>
        obtain ⟨e, more, front⟩ := State.examined_front (Prod.ext chosen rfl)
        exact .station speed p _ e more up idle pending unpaused (Prod.ext chosen rfl) front
      · next none => exact .nothing _ idle pending unpaused (Prod.ext none rfl)
    · next t pending paused => exact .busy (.inr (.inr ⟨pending, by simp [paused]⟩))
  · next other =>
    refine .busy ?_
    cases up : s.mac.link with
    | down => exact .inl rfl
    | up speed => exact .inr (.inl fun idle => other speed up idle)

theorem State.startStation_frame {s : State} {p : Station} {e : PostEntry} {more : List PostEntry}
    (front : (s.posts.get p).queue = e :: more) (v : Speed) (k : Handle) :
    (s.startStation v p).frame k = { s.frame k with holds := { (s.frame k).holds with
      wire := if k = e.handle ∧ (s.frame k).state ≠ .free then true else (s.frame k).holds.wire } } := by
  unfold State.startStation
  rw [front]
  refine (State.frame_of_frames rfl k).trans ((State.addHold_frame (s.setPosts p _) e.handle
    (fun x => { x with wire := true }) k).trans ?_)
  rw [State.setPosts_frame]
  split <;> rfl

theorem State.startStation_posts {s : State} {p : Station} {e : PostEntry} {more : List PostEntry}
    (front : (s.posts.get p).queue = e :: more) (v : Speed) :
    (s.startStation v p).posts = s.posts.set p
      { s.posts.get p with queue := { e with started := true } :: more } := by
  unfold State.startStation
  rw [front]
  rfl

theorem State.startStation_mac {s : State} {p : Station} {e : PostEntry} {more : List PostEntry}
    (front : (s.posts.get p).queue = e :: more) (v : Speed) :
    (s.startStation v p).mac =
      { s.mac with tx := .station p e.handle (s.clock.now + v.sendTime e.wireLength) } := by
  unfold State.startStation
  rw [front]
  rfl

@[simp] theorem State.takeWork_body (s : State) (k : Handle) :
    (s.takeWork.frame k).state = (s.frame k).state ∧ (s.takeWork.frame k).origin = (s.frame k).origin ∧
      (s.takeWork.frame k).length = (s.frame k).length ∧ (s.takeWork.frame k).chain = (s.frame k).chain ∧
      (s.takeWork.frame k).result = (s.frame k).result ∧
      (s.takeWork.frame k).truncated = (s.frame k).truncated ∧
      (s.takeWork.frame k).tooLong = (s.frame k).tooLong ∧
      (s.takeWork.frame k).holds.fill = (s.frame k).holds.fill ∧
      (s.takeWork.frame k).holds.build = (s.frame k).holds.build ∧
      (s.takeWork.frame k).holds.intake = (s.frame k).holds.intake ∧
      (s.takeWork.frame k).holds.read = (s.frame k).holds.read ∧
      (s.takeWork.frame k).holds.post = (s.frame k).holds.post := by
  have work := s.takeWork_work
  generalize s.takeWork = t at work ⊢
  cases work with
  | busy => simp
  | flow => simp
  | nothing => simp
  | station speed p v e more up idle pending unpaused examined front =>
    rw [State.startStation_frame (s := { s with scheduler := v }) front speed k]
    exact ⟨rfl, rfl, rfl, rfl, rfl, rfl, rfl, rfl, rfl, rfl, rfl, rfl⟩

@[simp] theorem State.moveUp_body (s : State) (k : Handle) :
    (s.moveUp.frame k).state = (s.frame k).state ∧ (s.moveUp.frame k).origin = (s.frame k).origin ∧
      (s.moveUp.frame k).length = (s.frame k).length ∧ (s.moveUp.frame k).chain = (s.frame k).chain ∧
      (s.moveUp.frame k).result = (s.frame k).result ∧
      (s.moveUp.frame k).truncated = (s.frame k).truncated ∧
      (s.moveUp.frame k).tooLong = (s.frame k).tooLong ∧
      (s.moveUp.frame k).holds.fill = (s.frame k).holds.fill ∧
      (s.moveUp.frame k).holds.build = (s.frame k).holds.build ∧
      (s.moveUp.frame k).holds.intake = (s.frame k).holds.intake ∧
      (s.moveUp.frame k).holds.read = (s.frame k).holds.read ∧
      (s.moveUp.frame k).holds.post = (s.frame k).holds.post := by
  simp [State.moveUp]

@[simp] theorem State.compareInputs_body (s : State) (k : Handle) :
    (s.compareInputs.frame k).state = (s.frame k).state ∧
      (s.compareInputs.frame k).origin = (s.frame k).origin ∧
      (s.compareInputs.frame k).length = (s.frame k).length ∧
      (s.compareInputs.frame k).chain = (s.frame k).chain ∧
      (s.compareInputs.frame k).result = (s.frame k).result ∧
      (s.compareInputs.frame k).truncated = (s.frame k).truncated ∧
      (s.compareInputs.frame k).tooLong = (s.frame k).tooLong ∧
      (s.compareInputs.frame k).holds.fill = (s.frame k).holds.fill ∧
      (s.compareInputs.frame k).holds.build = (s.frame k).holds.build ∧
      (s.compareInputs.frame k).holds.intake = (s.frame k).holds.intake ∧
      (s.compareInputs.frame k).holds.read = (s.frame k).holds.read ∧
      (s.compareInputs.frame k).holds.post = (s.frame k).holds.post := by
  unfold State.compareInputs
  split <;> simp

@[simp] theorem State.loadPause_body (s : State) (q : Half) (k : Handle) :
    ((s.loadPause q).frame k).state = (s.frame k).state ∧
      ((s.loadPause q).frame k).origin = (s.frame k).origin ∧
      ((s.loadPause q).frame k).length = (s.frame k).length ∧
      ((s.loadPause q).frame k).chain = (s.frame k).chain ∧
      ((s.loadPause q).frame k).result = (s.frame k).result ∧
      ((s.loadPause q).frame k).truncated = (s.frame k).truncated ∧
      ((s.loadPause q).frame k).tooLong = (s.frame k).tooLong ∧
      ((s.loadPause q).frame k).holds.fill = (s.frame k).holds.fill ∧
      ((s.loadPause q).frame k).holds.build = (s.frame k).holds.build ∧
      ((s.loadPause q).frame k).holds.intake = (s.frame k).holds.intake ∧
      ((s.loadPause q).frame k).holds.read = (s.frame k).holds.read ∧
      ((s.loadPause q).frame k).holds.post = (s.frame k).holds.post := by
  unfold State.loadPause
  split
  · simp
  · split
    · split <;> simp
    · simp

/-! ### Classification (R61 to R63) -/

@[simp] theorem State.classify_frame (s : State) (h : Handle) (o : Origin) (k : Handle) :
    (s.classify h o).frame k = { s.frame k with
      result := if k = h then some (s.resultOf h o (s.walkFrame h o)) else (s.frame k).result } := by
  unfold State.classify
  rw [State.countAsleep_frame]
  refine (State.frame_of_frames rfl k).trans ((State.modifyFrame_frame (s.raiseHits _) h k
    fun f => { f with result := some (s.resultOf h o (s.walkFrame h o)) }).trans ?_)
  simp only [State.raiseHits_frame]
  split
  · next e => subst e; rfl
  · rfl

/-! ### Admission (R91 to R95) -/

theorem State.admitAt_frame (s : State) (h : Handle) (wake : Bool) (p : Station) (k : Handle) :
    (s.admitAt h wake p).frame k = { s.frame k with holds := { (s.frame k).holds with
      intake := if k = h ∧ (s.frame k).state ≠ .free then insertStation (s.frame k).holds.intake p
        else (s.frame k).holds.intake } } := by
  have held : (s.admitAt h wake p).frame k = ((s.setIntake p (s.intake.get p ++
      [{ handle := h, admitted := s.clock.now, wake := wake }])).modifyFrame h
      fun f => f.addHold fun x => { x with intake := insertStation x.intake p }).frame k := by
    unfold State.admitAt
    dsimp only
    split <;> simp only [State.raiseFlag_frame, State.countStation_frame]
  rw [held, State.addHold_frame, State.setIntake_frame]
  split <;> rfl

theorem State.admitAt_intake (s : State) (h : Handle) (wake : Bool) (p : Station) :
    (s.admitAt h wake p).intake = s.intake.set p (s.intake.get p ++
      [{ handle := h, admitted := s.clock.now, wake := wake }]) := by
  unfold State.admitAt
  dsimp only
  split <;> simp

/-- The stations of a delivery set that take a frame, each deciding for itself (R92). -/
def State.admitters (s : State) (h : Handle) (delivery : StationSet) : StationSet :=
  stationsWhere fun t => inSet delivery t && (s.decide (s.frame h).granules t == .admitted)

/-- The stations that take a classified frame. -/
def State.admittedOf (s : State) (h : Handle) : StationSet :=
  match (s.frame h).result with
  | none => 0
  | some r => s.admitters h r.delivery

theorem State.admittedOf_eq {s : State} {h : Handle} {r : ClassResult}
    (classified : (s.frame h).result = some r) : s.admittedOf h = s.admitters h r.delivery := by
  rw [State.admittedOf, classified]

/-- The charge of a station depends on its own holds and the chains alone. -/
theorem State.charge_congr {s t : State} {p : Station}
    (h : ∀ k, (t.frame k).holds.heldBy p = (s.frame k).holds.heldBy p ∧
      (t.frame k).chain = (s.frame k).chain) : t.charge p = s.charge p := by
  unfold State.charge
  rw [Table.rows_eq_map, Table.rows_eq_map, List.map_map, List.map_map]
  congr 1
  refine List.map_congr_left fun k _ => ?_
  obtain ⟨held, chain⟩ := h k
  have held : (t.store.frames.get k).holds.heldBy p = (s.store.frames.get k).holds.heldBy p := held
  have chain : (t.store.frames.get k).chain = (s.store.frames.get k).chain := chain
  simp [held, Frame.granules, chain]

/-- The decision of Table 5-3 at a station depends on its own session, queue, quota and charge alone. -/
theorem State.decide_congr {s t : State} {p : Station} {n : Nat} (sessions : t.sessions = s.sessions)
    (intake : t.intake.get p = s.intake.get p)
    (installed : t.partition.installed = s.partition.installed)
    (frames : ∀ k, (t.frame k).holds.heldBy p = (s.frame k).holds.heldBy p ∧
      (t.frame k).chain = (s.frame k).chain) : t.decide n p = s.decide n p := by
  have quota : t.quota p = s.quota p := by simp [State.quota, State.share, installed]
  unfold State.decide
  rw [State.inSession_of_sessions sessions, intake, State.charge_congr frames, quota]

/-- The offer of a frame at one station, in one form for all decisions: the queue. -/
theorem State.offer_intake (h : Handle) (wake : StationSet) (x : State × Nat) (t : Station) :
    (State.offer h wake x t).1.intake =
      if x.1.decide (x.1.frame h).granules t = .admitted then x.1.intake.set t (x.1.intake.get t ++
        [{ handle := h, admitted := x.1.clock.now, wake := inSet wake t }])
      else x.1.intake := by
  unfold State.offer
  split <;> simp [*, State.admitAt_intake]

theorem State.offer_frame (h : Handle) (wake : StationSet) (x : State × Nat) (t : Station) (k : Handle) :
    (State.offer h wake x t).1.frame k = { x.1.frame k with holds := { (x.1.frame k).holds with
      intake := if x.1.decide (x.1.frame h).granules t = .admitted ∧ k = h ∧ (x.1.frame k).state ≠ .free
        then insertStation (x.1.frame k).holds.intake t else (x.1.frame k).holds.intake } } := by
  unfold State.offer
  split <;> simp [*, State.admitAt_frame]

theorem State.offer_count (h : Handle) (wake : StationSet) (x : State × Nat) (t : Station) :
    (State.offer h wake x t).2 =
      x.2 + if x.1.decide (x.1.frame h).granules t = .admitted then 1 else 0 := by
  unfold State.offer
  split <;> simp [*]

theorem inSet_insert_of_ne {x : StationSet} {p q : Station} (h : q ≠ p) :
    inSet (insertStation x p) q = inSet x q := by simp [inSet_insert, Ne.symm h]

/-- An offer to one station leaves the decisions of the others as they were. -/
theorem State.offer_decide (h : Handle) (wake : StationSet) (x : State × Nat) {t q : Station}
    (other : q ≠ t) (n : Nat) : (State.offer h wake x t).1.decide n q = x.1.decide n q := by
  obtain ⟨s, m⟩ := x
  refine State.decide_congr (by simp) ?_ (by simp) fun k => ?_
  · rw [State.offer_intake]
    split
    · exact Per.get_set_ne _ _ other
    · rfl
  · rw [State.offer_frame]
    simp only [Holds.heldBy]
    split
    · rw [inSet_insert_of_ne other]; exact ⟨rfl, trivial⟩
    · exact ⟨rfl, trivial⟩

theorem State.offer_granules (h : Handle) (wake : StationSet) (x : State × Nat) (t : Station) :
    ((State.offer h wake x t).1.frame h).granules = (x.1.frame h).granules := by
  rw [State.offer_frame]; rfl

theorem State.offer_admitters (h : Handle) (wake delivery : StationSet) (x : State × Nat) {t q : Station}
    (other : q ≠ t) : inSet ((State.offer h wake x t).1.admitters h delivery) q =
      inSet (x.1.admitters h delivery) q := by
  simp only [State.admitters, inSet_stationsWhere, State.offer_granules,
    State.offer_decide h wake x other]

/-- The offers of a frame to the stations of a list, one after another (R91). -/
def State.offers (h : Handle) (delivery wake : StationSet) (l : List Station) (x : State × Nat) :
    State × Nat :=
  l.foldl (fun acc t => if inSet delivery t then State.offer h wake acc t else acc) x

/-- What offers to some stations make of a hub, whose queues and intake holds they may extend, and of its count of
admissions. -/
structure OffersMade (h : Handle) (delivery wake : StationSet) (l : List Station) (x y : State × Nat) :
    Prop where
  beside : ∀ k, y.1.frame k = { x.1.frame k with
    holds := { (x.1.frame k).holds with intake := (y.1.frame k).holds.intake } }
  held : ∀ k q, inSet (y.1.frame k).holds.intake q = true ↔ inSet (x.1.frame k).holds.intake q = true ∨
    (k = h ∧ (x.1.frame k).state ≠ .free ∧ q ∈ l ∧ inSet (x.1.admitters h delivery) q = true)
  intake : ∀ q, y.1.intake.get q = if q ∈ l ∧ inSet (x.1.admitters h delivery) q = true
    then x.1.intake.get q ++ [{ handle := h, admitted := x.1.clock.now, wake := inSet wake q }]
    else x.1.intake.get q
  count : y.2 = x.2 + (l.filter (inSet (x.1.admitters h delivery))).length

theorem State.admitters_iff {s : State} {h : Handle} {delivery : StationSet} {t : Station} :
    inSet (s.admitters h delivery) t = true ↔
      inSet delivery t = true ∧ s.decide (s.frame h).granules t = .admitted := by
  simp [State.admitters]

theorem OffersMade.skipped {h : Handle} {delivery wake : StationSet} {l : List Station} {t : Station}
    {x y : State × Nat} (m : OffersMade h delivery wake l x y)
    (skipped : inSet (x.1.admitters h delivery) t = false) : OffersMade h delivery wake (t :: l) x y where
  beside := m.beside
  held k q := by
    rw [m.held]
    by_cases e : q = t <;> simp [e, skipped]
  intake q := by
    rw [m.intake]
    by_cases e : q = t <;> simp [e, skipped]
  count := by rw [m.count, List.filter_cons_of_neg (by simp [skipped])]

theorem OffersMade.offered {h : Handle} {delivery wake : StationSet} {l : List Station} {t : Station}
    {x y : State × Nat} (m : OffersMade h delivery wake l (State.offer h wake x t) y) (fresh : t ∉ l)
    (offered : inSet delivery t = true) : OffersMade h delivery wake (t :: l) x y := by
  have same : ∀ q ∈ l, inSet ((State.offer h wake x t).1.admitters h delivery) q =
      inSet (x.1.admitters h delivery) q := fun q hq =>
    State.offer_admitters h wake delivery x fun e => fresh (e ▸ hq)
  have admits : inSet (x.1.admitters h delivery) t = true ↔
      x.1.decide (x.1.frame h).granules t = .admitted := by
    rw [State.admitters_iff]; simp [offered]
  obtain ⟨beside, held, intake, count⟩ := m
  refine ⟨fun k => ?_, fun k q => ?_, fun q => ?_, ?_⟩
  · rw [beside, State.offer_frame]
  · rw [held, State.offer_frame]
    by_cases e : q = t
    · subst e
      by_cases a : x.1.decide (x.1.frame h).granules q = .admitted
      · by_cases busy : k = h ∧ (x.1.frame k).state ≠ .free
        · simp [a, admits, fresh, busy.1, busy.1 ▸ busy.2]
        · simp only [a, admits, busy, and_false, if_false, fresh, false_and, or_false]
          tauto
      · simp [a, admits, fresh]
    · have kept : ∀ (c : Prop) [Decidable c], inSet (if c then insertStation (x.1.frame k).holds.intake t
          else (x.1.frame k).holds.intake) q = inSet (x.1.frame k).holds.intake q := by
        intro c _
        split
        · exact inSet_insert_of_ne e
        · rfl
      rw [kept]
      by_cases m : q ∈ l
      · rw [same q m]; simp [m]
      · simp [m, e]
  · rw [intake, State.offer_intake, (State.offer_keeps x.1 h wake x.2 t).1]
    by_cases e : q = t
    · subst e
      by_cases a : x.1.decide (x.1.frame h).granules q = .admitted <;> simp [a, admits, fresh]
    · have kept : ∀ (c : Prop) [Decidable c] (l : List IntakeEntry),
          Per.get (if c then x.1.intake.set t l else x.1.intake) q = x.1.intake.get q := by
        intro c _ l
        split
        · exact Per.get_set_ne _ _ e
        · rfl
      rw [kept]
      by_cases m : q ∈ l
      · rw [same q m]; simp [m]
      · simp [m, e]
  · rw [count, State.offer_count, List.filter_congr same, Nat.add_assoc]
    congr 1
    by_cases a : x.1.decide (x.1.frame h).granules t = .admitted
    · rw [if_pos a, List.filter_cons_of_pos (admits.mpr a), List.length_cons, Nat.add_comm]
    · rw [if_neg a, List.filter_cons_of_neg (mt admits.mp a), Nat.zero_add]

theorem State.offers_made (h : Handle) (delivery wake : StationSet) :
    ∀ (l : List Station) (x : State × Nat), l.Nodup →
      OffersMade h delivery wake l x (State.offers h delivery wake l x) := by
  intro l
  induction l with
  | nil => intro x _; exact ⟨fun _ => rfl, by simp [State.offers], by simp [State.offers], rfl⟩
  | cons t l ih =>
    intro x distinct
    obtain ⟨fresh, distinct⟩ := List.nodup_cons.mp distinct
    by_cases offered : inSet delivery t = true
    · have step : State.offers h delivery wake (t :: l) x =
          State.offers h delivery wake l (State.offer h wake x t) := by simp [State.offers, offered]
      rw [step]
      exact (ih _ distinct).offered fresh offered
    · have step : State.offers h delivery wake (t :: l) x = State.offers h delivery wake l x := by
        simp [State.offers, offered]
      rw [step]
      refine (ih x distinct).skipped (Bool.eq_false_iff.mpr fun a => offered ?_)
      exact (State.admitters_iff.mp a).1

/-! #### The admission at all stations -/

theorem Station.all_nodup : Station.all.Nodup := by decide

theorem State.admission_eq {s : State} {h : Handle} {r : ClassResult}
    (classified : (s.frame h).result = some r) :
    s.admission h = State.offers h r.delivery r.wake Station.all (s, 0) := by
  unfold State.admission
  rw [classified]
  rfl

theorem State.admission_made {s : State} {h : Handle} {r : ClassResult}
    (classified : (s.frame h).result = some r) :
    OffersMade h r.delivery r.wake Station.all (s, 0) (s.admission h) := by
  rw [State.admission_eq classified]
  exact State.offers_made h _ _ _ _ Station.all_nodup

theorem State.admission_unclassified {s : State} {h : Handle} (none : (s.frame h).result = none) :
    s.admission h = (s, 0) := by
  unfold State.admission
  rw [none]

@[simp] theorem State.admission_frame (s : State) (h k : Handle) :
    (s.admission h).1.frame k = { s.frame k with holds := { (s.frame k).holds with
      intake := if k = h ∧ (s.frame k).state ≠ .free
        then (s.frame k).holds.intake ||| s.admittedOf h else (s.frame k).holds.intake } } := by
  cases classified : (s.frame h).result with
  | none =>
    have empty : s.admittedOf h = 0#4 := by rw [State.admittedOf, classified]; rfl
    rw [State.admission_unclassified classified, empty, BitVec.or_zero, ite_self]
  | some r =>
    have made := State.admission_made classified
    have held : ((s.admission h).1.frame k).holds.intake = if k = h ∧ (s.frame k).state ≠ .free
        then (s.frame k).holds.intake ||| s.admittedOf h else (s.frame k).holds.intake := by
      refine set_ext fun q => ?_
      rw [Bool.eq_iff_iff, made.held, State.admittedOf_eq classified]
      by_cases busy : k = h ∧ (s.frame k).state ≠ .free
      · simp [busy.1, busy.1 ▸ busy.2, Station.mem_all]
      · rw [if_neg busy]
        tauto
    rw [made.beside, held]

theorem State.admission_intake (s : State) (h : Handle) (q : Station) :
    (s.admission h).1.intake.get q = if inSet (s.admittedOf h) q = true
      then s.intake.get q ++
        [⟨h, s.clock.now, inSet (((s.frame h).result.map fun r => r.wake).getD 0) q⟩]
      else s.intake.get q := by
  cases classified : (s.frame h).result with
  | none =>
    have empty : s.admittedOf h = 0#4 := by rw [State.admittedOf, classified]; rfl
    rw [State.admission_unclassified classified, empty, inSet_empty]
    rfl
  | some r =>
    have made := State.admission_made classified
    rw [made.intake, State.admittedOf_eq classified]
    simp [Station.mem_all]

theorem State.admission_count (s : State) (h : Handle) :
    (s.admission h).2 = (Station.all.filter (inSet (s.admittedOf h))).length := by
  cases classified : (s.frame h).result with
  | none =>
    have empty : s.admittedOf h = 0#4 := by rw [State.admittedOf, classified]; rfl
    rw [State.admission_unclassified classified, empty]
    rfl
  | some r =>
    rw [(State.admission_made classified).count, State.admittedOf_eq classified, Nat.zero_add]

/-! ### A post, and the end of a link frame (R89, R117) -/

@[simp] theorem State.settlePost_frame (s : State) (p : Station) (h k : Handle) :
    (s.settlePost p h).frame k =
      { s.frame k with state := if k = h then .settled else (s.frame k).state } := by
  unfold State.settlePost
  dsimp only
  rw [State.setPosts_frame, State.modifyFrame_frame]
  split
  · next e => subst e; rfl
  · rfl

@[simp] theorem State.deliverPost_body (s : State) (p : Station) (h : Handle) (v : PostFlags) (k : Handle) :
    ((s.deliverPost p h v).1.frame k).state = (s.frame k).state ∧
      ((s.deliverPost p h v).1.frame k).origin = (s.frame k).origin ∧
      ((s.deliverPost p h v).1.frame k).length = (s.frame k).length ∧
      ((s.deliverPost p h v).1.frame k).chain = (s.frame k).chain ∧
      ((s.deliverPost p h v).1.frame k).holds.fill = (s.frame k).holds.fill ∧
      ((s.deliverPost p h v).1.frame k).holds.build = (s.frame k).holds.build ∧
      ((s.deliverPost p h v).1.frame k).holds.read = (s.frame k).holds.read ∧
      ((s.deliverPost p h v).1.frame k).holds.post = (s.frame k).holds.post ∧
      ((s.deliverPost p h v).1.frame k).holds.wire = (s.frame k).holds.wire := by
  unfold State.deliverPost
  split <;> simp

/-- The hub with a post hold and a post entry for a frame, before the transmitter is told. -/
def State.queued (s : State) (p : Station) (h : Handle) (deliveries : Nat) : State :=
  (s.modifyFrame h fun f => f.addHold fun x => { x with post := insertStation x.post p }).setPosts p
    { s.posts.get p with queue := (s.posts.get p).queue ++
      [{ handle := h, number := (s.posts.get p).number, deliveries := deliveries,
         wireLength := wireLengthOf (s.frame h).length, started := false }] }

theorem State.queuePost_eq (s : State) (p : Station) (h : Handle) (n : Nat) :
    s.queuePost p h n = (s.queued p h n).takeWork := rfl

@[simp] theorem State.queued_frame (s : State) (p : Station) (h : Handle) (n : Nat) (k : Handle) :
    (s.queued p h n).frame k = { s.frame k with holds := { (s.frame k).holds with
      post := if k = h ∧ (s.frame k).state ≠ .free then insertStation (s.frame k).holds.post p
        else (s.frame k).holds.post } } := by
  unfold State.queued
  rw [State.setPosts_frame, State.addHold_frame]
  split <;> rfl

@[simp] theorem State.queuePost_body (s : State) (p : Station) (h : Handle) (n : Nat) (k : Handle) :
    ((s.queuePost p h n).frame k).state = (s.frame k).state ∧
      ((s.queuePost p h n).frame k).origin = (s.frame k).origin ∧
      ((s.queuePost p h n).frame k).length = (s.frame k).length ∧
      ((s.queuePost p h n).frame k).chain = (s.frame k).chain ∧
      ((s.queuePost p h n).frame k).holds.fill = (s.frame k).holds.fill ∧
      ((s.queuePost p h n).frame k).holds.build = (s.frame k).holds.build ∧
      ((s.queuePost p h n).frame k).holds.intake = (s.frame k).holds.intake ∧
      ((s.queuePost p h n).frame k).holds.read = (s.frame k).holds.read := by
  simp [State.queuePost_eq]

@[simp] theorem State.settleFrame_body (s : State) (h k : Handle) :
    ((s.settleFrame h).frame k).state = (if k = h then .settled else (s.frame k).state) ∧
      ((s.settleFrame h).frame k).origin = (s.frame k).origin ∧
      ((s.settleFrame h).frame k).length = (s.frame k).length ∧
      ((s.settleFrame h).frame k).chain = (s.frame k).chain ∧
      ((s.settleFrame h).frame k).holds.fill = (if k = h then false else (s.frame k).holds.fill) ∧
      ((s.settleFrame h).frame k).holds.build = (s.frame k).holds.build ∧
      ((s.settleFrame h).frame k).holds.read = (s.frame k).holds.read ∧
      ((s.settleFrame h).frame k).holds.post = (s.frame k).holds.post ∧
      ((s.settleFrame h).frame k).holds.wire = (s.frame k).holds.wire := by
  simp only [State.settleFrame, State.setReceiver_frame, State.dropFillHold_frame,
    State.countUndelivered_frame, State.admission_frame, State.classify_frame, State.countGood_frame,
    State.modifyFrame_frame]
  split
  · next e => subst e; exact ⟨rfl, rfl, rfl, rfl, rfl, rfl, rfl, rfl, rfl⟩
  · exact ⟨rfl, rfl, rfl, rfl, rfl, rfl, rfl, rfl, rfl⟩

@[simp] theorem State.endFrame_body (s : State) (h : Handle) (e : EndOutcome) (k : Handle) :
    ((s.endFrame h e).frame k).origin = (s.frame k).origin ∧
      ((s.endFrame h e).frame k).length = (s.frame k).length ∧
      ((s.endFrame h e).frame k).chain = (s.frame k).chain ∧
      ((s.endFrame h e).frame k).holds.fill = (if k = h then false else (s.frame k).holds.fill) ∧
      ((s.endFrame h e).frame k).holds.build = (s.frame k).holds.build ∧
      ((s.endFrame h e).frame k).holds.read = (s.frame k).holds.read ∧
      ((s.endFrame h e).frame k).holds.post = (s.frame k).holds.post := by
  unfold State.endFrame
  dsimp only
  repeat' split
  all_goals simp_all

/-! ### Moves of the link -/

@[simp] theorem leftByDown_body (s : State) (h : Handle) :
    (leftByDown s h).build = (s.frame h).holds.build ∧
      (leftByDown s h).intake = (s.frame h).holds.intake ∧
      (leftByDown s h).read = (s.frame h).holds.read := by
  unfold leftByDown
  cases s.mac.tx <;> by_cases storing : s.mac.receiver = .storing h <;> simp [storing]
  all_goals split <;> simp

@[simp] theorem State.followInputs_body (s : State) (k : Handle) :
    (s.followInputs.frame k).state = (s.frame k).state ∧
      (s.followInputs.frame k).origin = (s.frame k).origin ∧
      (s.followInputs.frame k).length = (s.frame k).length ∧
      (s.followInputs.frame k).chain = (s.frame k).chain ∧
      (s.followInputs.frame k).holds.build = (s.frame k).holds.build ∧
      (s.followInputs.frame k).holds.intake = (s.frame k).holds.intake ∧
      (s.followInputs.frame k).holds.read = (s.frame k).holds.read := by
  unfold State.followInputs
  split <;> simp

@[simp] theorem State.dropForSpeed_frame (s : State) (k : Handle) :
    s.dropForSpeed.frame k = { s.frame k with
      holds := if s.mac.link = .down then (s.frame k).holds else leftByDown s k } := by
  unfold State.dropForSpeed
  split
  · next down => simp [down]
  · next up => simp [up]; rfl

end Sys2Proof.Machine
end

section
/-! Every step keeps the granule memory canonical and every chain as long as its frame calls for (R3, R6, R20). -/

namespace Sys2Proof.Machine

/-- A frame record changed in place, but for its chain and its length. -/
theorem State.modifyFrame_body {s : State} {h : Handle} {f : Frame → Frame}
    (hf : (f (s.frame h)).chain = (s.frame h).chain ∧ (f (s.frame h)).length = (s.frame h).length)
    (k : Handle) : ((s.modifyFrame h f).frame k).chain = (s.frame k).chain ∧
      ((s.modifyFrame h f).frame k).length = (s.frame k).length := by
  rw [State.modifyFrame_frame]
  split
  · next e => rw [e]; exact hf
  · exact ⟨rfl, rfl⟩

/-- A chain as long as the length of its frame calls for. -/
def Frame.housed (f : Frame) : Prop := f.chain.length = (f.length + 127) / 128

theorem Frame.housed_free : Frame.free.housed := rfl

theorem Frame.housed_filling : Frame.filling.housed := rfl

/-- The memory and the chains, as every step keeps them (R3, R6). -/
def ContentsHoused (s : State) : Prop := MemorySound s ∧ ChainsSound s

namespace ContentsHoused

variable {s t : State} {p : Station}

theorem of_bodies (h : ContentsHoused s) (mem : t.store.mem = s.store.mem)
    (bodies : ∀ k, (t.frame k).chain = (s.frame k).chain ∧ (t.frame k).length = (s.frame k).length) :
    ContentsHoused t := by
  obtain ⟨memory, chains⟩ := h
  refine ⟨by rw [MemorySound, mem]; exact memory, fun k => ?_⟩
  rw [(bodies k).1, (bodies k).2]
  exact chains k

/-- The same frame records, in a memory that is canonical too. -/
theorem of_frames (h : ContentsHoused s) (mem : Memory.wf t.store.mem)
    (frames : ∀ k, t.frame k = s.frame k) : ContentsHoused t :=
  ⟨mem, fun k => by rw [frames]; exact h.2 k⟩

/-- One frame record replaced by one that is housed. -/
theorem setFrame (h : ContentsHoused s) {f : Frame} (k : Handle) (hf : f.housed) :
    ContentsHoused (s.setFrame k f) := by
  refine ⟨by rw [MemorySound, (s.setFrame_keeps k f).2.2.1]; exact h.1, fun j => ?_⟩
  rw [State.setFrame_frame]
  split
  · exact hf
  · exact h.2 j

/-- The close of an event frees whole records. -/
theorem closed (b : State) (h : ContentsHoused s) : ContentsHoused (State.closeEvent b s) := by
  refine ⟨by rw [MemorySound, (State.closeEvent_keeps b s).2.2.1]; exact h.1, fun k => ?_⟩
  rw [State.closeEvent_frame]
  split
  · exact Frame.housed_free
  · exact h.2 k

theorem takeGranules (h : ContentsHoused s) (n : Nat) : ContentsHoused (s.takeGranules n) :=
  h.of_frames (State.takeGranules_wf h.1 n) (by simp)

theorem storeBytes (h : ContentsHoused s) (k : Handle) (o : Nat) (l : List Byte) :
    ContentsHoused (s.storeBytes k o l) := h.of_frames (State.storeBytes_wf h.1 k o l) (by simp)

theorem openBuild (h : ContentsHoused s) {k : Handle} {n : Nat}
    (granted : s.grantBuild p (granulesFor n) = some k) : ContentsHoused (s.openBuild p k n) := by
  have enough : granulesFor n ≤ s.store.freeList.length := by
    unfold State.grantBuild at granted
    split at granted
    · cases granted
    · omega
  refine (h.takeGranules _).setFrame k ?_
  show (s.store.freeList.take (granulesFor n)).length = granulesFor n
  rw [List.length_take, Nat.min_eq_left enough]

/-- A byte stored takes a granule more exactly when the last one is full. -/
theorem appendByte (h : ContentsHoused s) {k : Handle} {b : Byte} {chain : List Granule}
    (mem : Memory.wf t.store.mem) (others : ∀ j, j ≠ k → t.frame j = s.frame j)
    (length : (t.frame k).length = (s.frame k).length) (chained : (t.frame k).chain = chain)
    (fits : chain.length = ((s.frame k).length + 128) / 128) : ContentsHoused (t.appendByte k b) := by
  refine ⟨?_, fun j => ?_⟩
  · exact State.storeBytes_wf mem k _ [b]
  · rw [State.appendByte, State.modifyFrame_frame]
    split
    · next same => subst same; simp [chained, length, fits, Nat.add_assoc]
    · next other => rw [State.storeBytes_frame, others j other]; exact h.2 j

theorem storeArrival (h : ContentsHoused s) (k : Handle) (b : Byte) :
    ContentsHoused (s.storeArrival k b) := by
  have housed := h.2 k
  unfold State.storeArrival State.requestGranule
  dsimp only
  split
  · exact h
  · split
    · exact h.of_bodies (by simp) fun j => State.modifyFrame_body ⟨rfl, rfl⟩ j
    · split
      · next full =>
        simp only [granuleSize] at full
        split
        · next granted request =>
          split at request
          · next enough =>
            cases request
            refine h.appendByte (State.takeGranules_wf h.1 1) (fun j other => ?_) ?_ rfl ?_
            · simp [other]
            · simp
            · simp only [State.modifyFrame_frame, State.takeGranules_frame, if_true,
                List.length_append, List.length_take]
              omega
          · cases request
        · exact h.of_bodies (by simp) fun j => State.modifyFrame_body ⟨rfl, rfl⟩ j
      · next room =>
        simp only [granuleSize] at room
        exact h.appendByte h.1 (fun _ _ => rfl) rfl rfl (by omega)

theorem requestSlot (h : ContentsHoused s) : ContentsHoused s.requestSlot := by
  unfold State.requestSlot
  split
  · exact (h.setFrame _ Frame.housed_filling).of_bodies rfl fun _ => ⟨rfl, rfl⟩
  · exact h.of_bodies (by simp) (by simp)

theorem effect {u : State} {r : Option ReadStream} (h : ContentsHoused s) (e : Effect s p u r) :
    ContentsHoused u := by
  have closes : ∀ {v : State}, v.store.mem = s.store.mem →
      (∀ k, (v.frame k).chain = (s.frame k).chain ∧ (v.frame k).length = (s.frame k).length) →
      ContentsHoused (State.closeEvent s v) := fun mem bodies => (h.of_bodies mem bodies).closed s
  cases e with
  | nothing => exact h
  | txopen active k n fits room granted => exact (h.openBuild granted).closed s
  | txwrite => exact h.storeBytes _ _ _
  | txpost active k v built =>
    unfold State.post
    dsimp only
    split <;> exact closes (by simp) (by simp)
  | leave | suspend | rxrelease | cancelBuild | cancelPost | propose | endorse =>
    exact closes (by simp) (by simp)
  | join | resume | setaccept | claim | draft | publish | disable | retire | rxread | txdone | object =>
    exact h.of_bodies (by simp) (by simp)
  | events | setmask | snapshot => exact h.of_bodies rfl fun _ => ⟨rfl, rfl⟩

end ContentsHoused

theorem contentsHoused_eventsKeep : EventsKeep ContentsHoused where
  quiet _ _ _ h := h.of_bodies rfl fun _ => ⟨rfl, rfl⟩
  port _ _ _ h _ := h.of_bodies (by simp) (by simp)
  effect _ _ _ _ _ h e _ _ _ := (h.effect e).of_bodies (by simp) (by simp)
  rise s _ _ h _ _ := (h.of_bodies (by simp) (by simp)).closed s
  lastByte s _ _ _ h _ _ := (h.of_bodies (by simp) (by simp)).closed s
  presentFall _ _ h _ := (h.of_bodies (by simp) (by simp)).closed _
  present _ _ _ h _ := h.of_bodies (by simp) (by simp)
  deviceReset _ _ ran _ := by
    cases ran
    exact ⟨State.reset_wf, fun k => by simp [State.frame, State.reset, FrameStore.reset, Frame.free]⟩
  phyInputChange _ _ s h := (h.of_bodies (by simp) (by simp)).closed s
  speedChange _ s h := (h.of_bodies (by simp) (by simp)).closed s
  linkInputCompare _ h := h.of_bodies (by simp) (by simp)
  frameStart _ _ h _ _ := h.requestSlot
  byteArrival b s k h _ := by
    have checked : ContentsHoused (s.checkArrival b) := h.of_bodies (by simp) (by simp)
    exact (checked.storeArrival k b).closed s
  frameEnd _ s _ h _ := (h.of_bodies (by simp) (by simp)).closed s
  skipped _ h _ := h.of_bodies (by simp) (by simp)
  transmissionComplete s p k t h _ := by
    have ended : ContentsHoused ((s.reach t).sendEnded p k) := h.of_bodies (by simp) (by simp)
    exact (ended.closed s).of_bodies (by simp) (by simp)
  flowControlComplete _ _ _ h _ := h.of_bodies (by simp) (by simp)
  pauseTimerExpiry _ _ h _ := h.of_bodies (by simp) (by simp)
  refreshTimerExpiry _ _ _ _ h _ _ := h.of_bodies (by simp) (by simp)
  holdLimitExpiry _ s _ h _ := (h.of_bodies (by simp) (by simp)).closed s
  proposalExpiry _ _ h _ := h.of_bodies (by simp) (by simp)

/-- Settles O53: granules come to a chain with the bytes that fill them, and go with the whole record. -/
theorem stepKeepsContentsHoused : Obligations.StepKeepsContentsHoused :=
  contentsHoused_eventsKeep.step

end Sys2Proof.Machine
end

section
/-! Every step keeps each granule exactly once in the free list or in one chain, and a record FREE exactly while it
carries no hold (R1, R3, R7). -/

namespace Sys2Proof.Machine

/-! ### Holds taken off frames -/

/-- Holds that are all among others. -/
structure Holds.Within (x y : Holds) : Prop where
  fill : x.fill = true → y.fill = true
  build : ∀ q, inSet x.build q = true → inSet y.build q = true
  intake : ∀ q, inSet x.intake q = true → inSet y.intake q = true
  read : ∀ q, inSet x.read q = true → inSet y.read q = true
  post : ∀ q, inSet x.post q = true → inSet y.post q = true
  wire : x.wire = true → y.wire = true

theorem Holds.Within.refl (x : Holds) : x.Within x :=
  ⟨id, fun _ => id, fun _ => id, fun _ => id, fun _ => id, id⟩

theorem Holds.Within.trans {x y z : Holds} (h : x.Within y) (k : y.Within z) : x.Within z :=
  ⟨k.fill ∘ h.fill, fun q => k.build q ∘ h.build q, fun q => k.intake q ∘ h.intake q,
    fun q => k.read q ∘ h.read q, fun q => k.post q ∘ h.post q, k.wire ∘ h.wire⟩

theorem Holds.Within.none {x : Holds} (h : x.Within Holds.none) : x = Holds.none := by
  obtain ⟨fill, build, intake, read, post, wire⟩ := h
  have empty : ∀ {a : StationSet}, (∀ q, inSet a q = true → inSet (0#4) q = true) → a = 0 :=
    fun h => set_ext fun q => by
      rw [Bool.eq_iff_iff]; exact ⟨h q, fun e => absurd e (by simp)⟩
  exact Holds.ext (Bool.eq_false_iff.mpr fun e => absurd (fill e) (by simp [Holds.none])) (empty build)
    (empty intake) (empty read) (empty post)
    (Bool.eq_false_iff.mpr fun e => absurd (wire e) (by simp [Holds.none]))

theorem Holds.withoutStation_within (x : Holds) (p : Station) : (x.withoutStation p).Within x := by
  constructor <;> simp +contextual [Holds.withoutStation, inSet_erase]

/-- A frame record with some of its holds taken off, and nothing else changed. -/
def Frame.Reduced (f g : Frame) : Prop := g = { f with holds := g.holds } ∧ g.holds.Within f.holds

theorem Frame.Reduced.of_within {f : Frame} {x : Holds} (h : x.Within f.holds) :
    f.Reduced { f with holds := x } := ⟨rfl, h⟩

theorem Frame.Reduced.state {f g : Frame} (h : f.Reduced g) : g.state = f.state := by rw [h.1]

theorem Frame.Reduced.free {f g : Frame} (h : f.Reduced g) (free : f = Frame.free) :
    g = Frame.free := by
  subst free
  rw [h.1, Holds.Within.none h.2]
  rfl

/-- One of several sets of holds that are all among others. -/
theorem Holds.within_ite {x y z : Holds} (c : Prop) [Decidable c] (hx : x.Within z) (hy : y.Within z) :
    (if c then x else y).Within z := by
  split
  · exact hx
  · exact hy

/-- The operations on holds whose results are all among the holds before. -/
theorem Holds.within_intake {x : Holds} {i : StationSet}
    (h : ∀ q, inSet i q = true → inSet x.intake q = true) : ({ x with intake := i } : Holds).Within x :=
  { Holds.Within.refl x with intake := h }

theorem inSet_of_erase {x : StationSet} {p q : Station} (h : inSet (eraseStation x p) q = true) :
    inSet x q = true := by
  rw [inSet_erase, Bool.and_eq_true] at h
  exact h.1

theorem inSet_of_erase_if {x : StationSet} {p q : Station} {c : Prop} [Decidable c]
    (h : inSet (if c then eraseStation x p else x) q = true) : inSet x q = true :=
  (inSet_erase_if.mp h).1

theorem inSet_of_and {x y : StationSet} {q : Station} (h : inSet (x &&& y) q = true) :
    inSet x q = true := by
  rw [inSet_and, Bool.and_eq_true] at h
  exact h.1

theorem leftByDown_within (s : State) (k : Handle) : (leftByDown s k).Within (s.frame k).holds := by
  have received : (if s.mac.receiver = .storing k then { (s.frame k).holds with fill := false }
      else (s.frame k).holds).Within (s.frame k).holds :=
    Holds.within_ite _ { Holds.Within.refl _ with fill := by simp } (.refl _)
  unfold leftByDown
  dsimp only
  split
  · split
    · refine Holds.Within.trans ?_ received
      exact { Holds.Within.refl _ with post := fun q => inSet_of_erase, wire := by simp }
    · exact received
  · exact received

namespace State

/-- Every frame record of a hub has at most lost holds since another one. -/
def Reduced (s t : State) : Prop := ∀ k, (s.frame k).Reduced (t.frame k)

variable (s : State) (p : Station) (h : Handle)

theorem removeEntry_reduced : s.Reduced (s.removeEntry p h) := fun k => by
  rw [removeEntry_frame]
  exact .of_within (Holds.within_intake fun q => inSet_of_erase_if)

theorem releaseRead_reduced (r : ReadStream) : s.Reduced (s.releaseRead p r) := fun k => by
  rw [releaseRead_frame]
  exact .of_within (Holds.within_intake fun q => inSet_of_erase_if)

theorem dropReadHold_reduced : s.Reduced (s.dropReadHold p) := fun k => by
  rw [dropReadHold_frame]
  exact .of_within { Holds.Within.refl _ with read := fun q => inSet_of_erase_if }

theorem dropBuildHold_reduced : s.Reduced (s.dropBuildHold p h) := fun k => by
  rw [dropBuildHold_frame]
  exact .of_within { Holds.Within.refl _ with build := fun q => inSet_of_erase_if }

theorem cancelPost_reduced (e : PostEntry) : s.Reduced (s.cancelPost p e) := fun k => by
  rw [cancelPost_frame]
  exact .of_within { Holds.Within.refl _ with post := fun q => inSet_of_erase_if }

theorem discardFrame_reduced (c : LinkCounter) : s.Reduced (s.discardFrame h c) := fun k => by
  rw [discardFrame_frame]
  exact .of_within { Holds.Within.refl _ with fill := by split <;> simp }

theorem sendEnded_reduced : s.Reduced (s.sendEnded p h) := fun k => by
  rw [sendEnded_frame]
  exact .of_within { Holds.Within.refl _ with
    post := fun q => inSet_of_erase_if
    wire := by split <;> simp }

theorem expireQueue_reduced : s.Reduced (s.expireQueue p) := fun k => by
  rw [expireQueue_frame]
  exact .of_within (Holds.within_intake fun q => inSet_of_erase_if)

theorem settleProposal_reduced (o : Proposal) : s.Reduced (s.settleProposal o) := fun k => by
  rw [settleProposal_frame]
  exact .of_within (Holds.within_intake fun q => inSet_of_and)

theorem departActive_reduced : s.Reduced (s.departActive p) := fun k => by
  rw [departActive_frame]
  exact .of_within (Holds.within_intake fun q => inSet_of_and)

theorem propose_reduced (r : PartitionRecord) : s.Reduced (s.propose p r) := fun k => by
  rw [propose_frame]
  exact .of_within (Holds.within_intake fun q => inSet_of_and)

theorem teardown_reduced : s.Reduced (s.teardown p) := fun k => by
  rw [teardown_frame]
  exact .of_within (Holds.Within.trans (Holds.within_intake fun q => inSet_of_and)
    (Holds.withoutStation_within _ p))

theorem endSession_reduced : s.Reduced (s.endSession p) := fun k => by
  rw [endSession_frame]
  exact .of_within (Holds.Within.trans (Holds.within_intake fun q => inSet_of_and)
    (Holds.withoutStation_within _ p))

theorem moveDown_reduced : s.Reduced s.moveDown := fun k => by
  rw [moveDown_frame]
  exact .of_within (leftByDown_within s k)

theorem dropForSpeed_reduced : s.Reduced s.dropForSpeed := fun k => by
  rw [dropForSpeed_frame]
  exact .of_within (Holds.within_ite _ (.refl _) (leftByDown_within s k))

end State

theorem State.Reduced.of_frames {s s' t : State} (h : s'.Reduced t) (same : ∀ k, s'.frame k = s.frame k) :
    s.Reduced t := fun k => same k ▸ h k

theorem State.Reduced.to_frames {s t t' : State} (h : s.Reduced t) (same : ∀ k, t'.frame k = t.frame k) :
    s.Reduced t' := fun k => (same k).symm ▸ h k

/-! ### Frames that stay FREE -/

theorem State.takeWork_free {s : State} {k : Handle} (free : s.frame k = Frame.free) :
    s.takeWork.frame k = Frame.free := by
  have work := s.takeWork_work
  generalize s.takeWork = t at work ⊢
  cases work with
  | busy => exact free
  | flow => simpa using free
  | nothing => simpa using free
  | station speed p v e more up idle pending unpaused examined front =>
    rw [State.startStation_frame (s := { s with scheduler := v }) front speed k]
    simp [free, Frame.free]

/-- Taking work takes no hold off a frame. -/
theorem State.takeWork_held {s : State} {k : Handle} (empty : (s.takeWork.frame k).holds.isEmpty = true) :
    (s.frame k).holds.isEmpty = true := by
  rw [Holds.isEmpty_iff] at empty ⊢
  obtain ⟨fill, build, intake, read, post, wire⟩ := empty
  simp only [State.takeWork_body] at fill build intake read post
  refine ⟨fill, build, intake, read, post, ?_⟩
  have work := s.takeWork_work
  generalize s.takeWork = t at work wire
  cases work with
  | busy => exact wire
  | flow => simpa using wire
  | nothing => simpa using wire
  | station speed p v e more up idle pending unpaused examined front =>
    rw [State.startStation_frame (s := { s with scheduler := v }) front speed k] at wire
    split at wire
    · cases wire
    · exact wire

/-! ### The slot grant (R4, R85) -/

theorem State.requestSlot_granted {s : State} {h : Handle} (found : lowestFree s.store.frames = some h) :
    (∀ k, s.requestSlot.frame k = if k = h then Frame.filling else s.frame k) ∧
      s.requestSlot.mac.receiver = .storing h := by
  unfold State.requestSlot
  rw [found]
  exact ⟨fun k => s.setFrame_frame h k Frame.filling, rfl⟩

/-! ### The arrival of a byte (R19, R86) -/

@[simp] theorem State.appendByte_frame (s : State) (h : Handle) (b : Byte) (k : Handle) :
    (s.appendByte h b).frame k =
      { s.frame k with length := if k = h then (s.frame k).length + 1 else (s.frame k).length } := by
  unfold State.appendByte
  rw [State.modifyFrame_frame, State.storeBytes_frame, State.storeBytes_frame]
  split
  · next e => subst e; rfl
  · rfl

/-- What the arrival of a byte can do to a frame being stored, with the premises of each case. -/
inductive Arrival (s : State) (h : Handle) (b : Byte) : State → Prop where
  | flagged (f : (s.frame h).truncated ∨ (s.frame h).tooLong) : Arrival s h b s
  | tooLong (full : 1514 ≤ (s.frame h).length) :
    Arrival s h b (s.modifyFrame h fun f => { f with tooLong := true })
  | truncated (span : (s.frame h).length % 128 = 0) :
    Arrival s h b (s.modifyFrame h fun f => { f with truncated := true })
  | granule (fits : (s.frame h).length < 1514) (span : (s.frame h).length % 128 = 0)
    (granted : s.partition.installed.reserve.toNat < s.store.freeList.length) :
    Arrival s h b (((s.takeGranules 1).modifyFrame h fun f =>
      { f with chain := f.chain ++ s.store.freeList.take 1 }).appendByte h b)
  | stored (fits : (s.frame h).length < 1514) (span : (s.frame h).length % 128 ≠ 0) :
    Arrival s h b (s.appendByte h b)

theorem State.storeArrival_arrival (s : State) (h : Handle) (b : Byte) :
    Arrival s h b (s.storeArrival h b) := by
  unfold State.storeArrival State.requestGranule
  dsimp only
  split
  · next f => exact .flagged f
  · split
    · next full => exact .tooLong full
    · next fits =>
      have fits : (s.frame h).length < 1514 := Nat.lt_of_not_le fits
      split
      · next span =>
        split
        · next t request =>
          split at request
          · next granted => cases request; exact .granule fits span granted
          · cases request
        · exact .truncated span
      · next span => exact .stored fits span

/-- The arrival of a byte leaves all other records, and of its own the state and the holds, and takes granules for no
chain but that of its frame. -/
theorem Arrival.body {s t : State} {h : Handle} {b : Byte} (a : Arrival s h b t) :
    (∀ k, k ≠ h → t.frame k = s.frame k) ∧
      ((t.frame h).state = (s.frame h).state ∧ (t.frame h).origin = (s.frame h).origin ∧
        (t.frame h).result = (s.frame h).result ∧ (t.frame h).holds = (s.frame h).holds) ∧
      t.mac.receiver = s.mac.receiver ∧
      ∃ n, t.store.freeList = s.store.freeList.drop n ∧
        (t.frame h).chain = (s.frame h).chain ++ s.store.freeList.take n := by
  cases a with
  | flagged => exact ⟨fun _ _ => rfl, ⟨rfl, rfl, rfl, rfl⟩, rfl, 0, by simp⟩
  | tooLong | truncated =>
    exact ⟨fun k other => by simp [other], by simp, by simp, 0, by simp⟩
  | granule => exact ⟨fun k other => by simp [other], by simp, by simp, 1, by simp, by simp⟩
  | stored => exact ⟨fun k other => by simp [other], by simp, by simp, 0, by simp⟩

/-! ### A post, step by step (R117) -/

/-- The hub after the steps of a post that may classify, offer and queue the frame, before its build hold goes. -/
def State.routed (s : State) (p : Station) (h : Handle) (v : PostFlags) : State :=
  if ((s.settlePost p h).deliverPost p h v).1.goesToWire h v
  then ((s.settlePost p h).deliverPost p h v).1.queuePost p h ((s.settlePost p h).deliverPost p h v).2
  else ((s.settlePost p h).deliverPost p h v).1.containPost p h ((s.settlePost p h).deliverPost p h v).2

theorem State.post_eq (s : State) (p : Station) (h : Handle) (v : PostFlags) :
    (s.post p h v).1 = State.closeEvent s (((s.routed p h v).dropBuildHold p h).countPost p
      ((s.settlePost p h).deliverPost p h v).2) := rfl

@[simp] theorem State.routed_body (s : State) (p : Station) (h : Handle) (v : PostFlags) (k : Handle) :
    ((s.routed p h v).frame k).state = (if k = h then .settled else (s.frame k).state) ∧
      ((s.routed p h v).frame k).origin = (s.frame k).origin ∧
      ((s.routed p h v).frame k).length = (s.frame k).length ∧
      ((s.routed p h v).frame k).chain = (s.frame k).chain ∧
      ((s.routed p h v).frame k).holds.fill = (s.frame k).holds.fill ∧
      ((s.routed p h v).frame k).holds.build = (s.frame k).holds.build ∧
      ((s.routed p h v).frame k).holds.read = (s.frame k).holds.read := by
  unfold State.routed
  split <;> simp

@[simp] theorem State.routed_keeps (s : State) (p : Station) (h : Handle) (v : PostFlags) :
    (s.routed p h v).store.mem = s.store.mem ∧ (s.routed p h v).store.freeList = s.store.freeList ∧
      (s.routed p h v).clock = s.clock ∧ (s.routed p h v).sessions = s.sessions ∧
      (s.routed p h v).pins = s.pins ∧ (s.routed p h v).partition = s.partition ∧
      (s.routed p h v).ports = s.ports ∧ (s.routed p h v).pending = s.pending ∧
      (s.routed p h v).mac.link = s.mac.link ∧ (s.routed p h v).mac.receiver = s.mac.receiver ∧
      (s.routed p h v).mac.pauseUntil = s.mac.pauseUntil := by
  unfold State.routed
  split <;> simp

/-- A post leaves the FREE records as they are. -/
theorem State.routed_free {s : State} {p : Station} {h k : Handle} {v : PostFlags} (other : k ≠ h)
    (free : s.frame k = Frame.free) : (s.routed p h v).frame k = Frame.free := by
  have delivered : ((s.settlePost p h).deliverPost p h v).1.frame k = Frame.free := by
    unfold State.deliverPost
    split
    · simp [other, free]
    · simp only [State.admission_frame, State.classify_frame, State.settlePost_frame, other, if_false,
        false_and, free]
  unfold State.routed
  split
  · rw [State.queuePost_eq]
    refine State.takeWork_free ?_
    simp only [State.queued_frame, other, false_and, if_false, delivered]
  · simpa using delivered

theorem State.inBuildSet_iff {s : State} {p : Station} {h : Handle} : s.inBuildSet p h = true ↔
    (s.frame h).state = .building ∧ inSet (s.frame h).holds.build p = true := by
  simp [State.inBuildSet, Frame.builtBy]

/-! ### The end of a link frame (R87 to R89) -/

@[simp] theorem State.discardFrame_receiver (s : State) (h : Handle) (c : LinkCounter) :
    (s.discardFrame h c).mac.receiver = .idle := rfl

@[simp] theorem State.endFrame_receiver (s : State) (h : Handle) (e : EndOutcome) :
    (s.endFrame h e).mac.receiver = .idle := by
  unfold State.endFrame
  dsimp only
  repeat' split
  all_goals rfl

theorem State.loadPause_free {s : State} {q : Half} {k : Handle} (free : s.frame k = Frame.free) :
    (s.loadPause q).frame k = Frame.free := by
  unfold State.loadPause
  split
  · exact free
  · split
    · split
      · exact State.takeWork_free (by simpa using free)
      · exact free
    · simpa using free

theorem State.discardFrame_free {s : State} {h k : Handle} {c : LinkCounter}
    (free : s.frame k = Frame.free) : (s.discardFrame h c).frame k = Frame.free :=
  (s.discardFrame_reduced h c k).free free

theorem State.settleFrame_free {s : State} {h k : Handle} (other : k ≠ h)
    (free : s.frame k = Frame.free) : (s.settleFrame h).frame k = Frame.free := by
  simp only [State.settleFrame, State.setReceiver_frame, State.dropFillHold_frame,
    State.countUndelivered_frame, State.admission_frame, State.classify_frame, State.countGood_frame,
    State.modifyFrame_frame, other, if_false, false_and, free]

theorem State.endFrame_free {s : State} {h k : Handle} {e : EndOutcome} (other : k ≠ h)
    (free : s.frame k = Frame.free) : (s.endFrame h e).frame k = Frame.free := by
  unfold State.endFrame
  dsimp only
  split
  · exact State.discardFrame_free free
  · exact State.discardFrame_free free
  · split
    · exact State.discardFrame_free free
    · split
      · exact State.discardFrame_free free
      · split
        · exact State.discardFrame_free free
        · split
          · exact State.discardFrame_free (State.loadPause_free free)
          · exact State.settleFrame_free other free

theorem State.endFrame_busy {s : State} {h k : Handle} {e : EndOutcome} (busy : (s.frame k).state ≠ .free) :
    ((s.endFrame h e).frame k).state ≠ .free := by
  unfold State.endFrame
  dsimp only
  repeat' split
  all_goals first | simpa using busy | skip
  rw [(s.settleFrame_body h k).1]
  split
  · simp
  · exact busy

/-! ### Records FREE exactly while they carry no hold -/

namespace FramesSound

variable {b s t : State} {p : Station}

/-- Frame records that changed, and kept all that makes them sound. -/
theorem follows (h : FramesSound s) (free : ∀ k, s.frame k = Frame.free → t.frame k = Frame.free)
    (busy : ∀ k, (s.frame k).state ≠ .free → (t.frame k).state ≠ .free)
    (held : ∀ k, (t.frame k).holds.isEmpty = true → (s.frame k).holds.isEmpty = true)
    (storing : ∀ k, t.mac.receiver = .storing k →
      (t.frame k).state = .filling ∧ (t.frame k).holds.fill = true) : FramesSound t where
  free k freed := free k (h.free k (not_not.mp fun c => busy k c freed))
  held k empty := by rw [free k (h.free k (h.held k (held k empty)))]; rfl
  storing := storing

theorem of_frames (h : FramesSound s) (same : ∀ k, t.frame k = s.frame k)
    (storing : ∀ k, t.mac.receiver = .storing k → s.mac.receiver = .storing k) : FramesSound t :=
  h.follows (fun k free => (same k).trans free) (fun k busy => same k ▸ busy) (fun k empty => same k ▸ empty)
    fun k stores => same k ▸ h.storing k (storing k stores)

/-- The close of an event releases the frames that lost their last hold, and the others kept what makes them sound. -/
theorem closed (h : FramesSound b) (free : ∀ k, b.frame k = Frame.free → s.frame k = Frame.free)
    (busy : ∀ k, (b.frame k).state ≠ .free → (s.frame k).state ≠ .free)
    (storing : ∀ k, s.mac.receiver = .storing k →
      (s.frame k).state = .filling ∧ (s.frame k).holds.fill = true) :
    FramesSound (State.closeEvent b s) where
  free k freed := by
    rw [State.closeEvent_frame] at freed ⊢
    split
    · rfl
    · next kept =>
      rw [if_neg kept] at freed
      exact free k (h.free k (not_not.mp fun c => busy k c freed))
  held k empty := by
    rw [State.closeEvent_frame] at empty ⊢
    split
    · rfl
    · next kept =>
      rw [if_neg kept] at empty
      have before : (b.frame k).holds.isEmpty = true := by simpa [lostLastHold, empty] using kept
      rw [free k (h.free k (h.held k before))]
      rfl
  storing k stores := by
    obtain ⟨filling, fill⟩ := storing k (by simpa using stores)
    have kept : lostLastHold (b.frame k) (s.frame k) = false := by
      have nonempty := mt (fun e => (Holds.isEmpty_iff.mp e).1) (by simp [fill] : ¬ (s.frame k).holds.fill = false)
      simp [lostLastHold, Bool.eq_false_iff.mpr nonempty]
    rw [State.closeEvent_frame, kept]
    exact ⟨filling, fill⟩

/-- The close of an event that only took holds off frames. -/
theorem reduced (h : FramesSound b) (reduced : b.Reduced s)
    (storing : ∀ k, s.mac.receiver = .storing k →
      b.mac.receiver = .storing k ∧ (s.frame k).holds.fill = (b.frame k).holds.fill) :
    FramesSound (State.closeEvent b s) := by
  refine h.closed (fun k => (reduced k).free) (fun k busy => (reduced k).state ▸ busy) fun k stores => ?_
  obtain ⟨before, fill⟩ := storing k stores
  obtain ⟨filling, filled⟩ := h.storing k before
  exact ⟨(reduced k).state.trans filling, fill.trans filled⟩

/-- A close in a hub whose records are sound changes no record. -/
theorem closeEvent_frame (h : FramesSound s) (b : State) (k : Handle) :
    (State.closeEvent b s).frame k = s.frame k := by
  rw [State.closeEvent_frame]
  split
  · next lost =>
    have empty : (s.frame k).holds.isEmpty = true := by
      simp only [lostLastHold, Bool.and_eq_true] at lost
      exact lost.2
    exact (h.free k (h.held k empty)).symm
  · rfl

theorem closedAfter (h : FramesSound s) (b : State) : FramesSound (State.closeEvent b s) :=
  h.of_frames (h.closeEvent_frame b) (by simp)

theorem takeWork (h : FramesSound s) : FramesSound s.takeWork :=
  h.follows (fun _ => State.takeWork_free) (fun k busy => by simpa using busy)
    (fun _ => State.takeWork_held) fun k stores => by
      simpa using h.storing k (by simpa using stores)

theorem addReadHold (h : FramesSound s) (k : Handle) : FramesSound (s.addReadHold p k) := by
  refine h.follows (fun j free => ?_) (fun j busy => by simpa using busy) (fun j empty => ?_)
    fun j stores => by simpa using h.storing j (by simpa using stores)
  · simp [free, Frame.free]
  · rw [Holds.isEmpty_iff] at empty ⊢
    rw [State.addReadHold_frame] at empty
    obtain ⟨fill, build, intake, read, post, wire⟩ := empty
    refine ⟨fill, build, intake, ?_, post, wire⟩
    dsimp only at read
    split at read
    · refine set_ext fun q => ?_
      have none : inSet (insertStation (s.frame j).holds.read p) q = false := by
        rw [read]; exact inSet_empty q
      simp only [inSet_insert, Bool.or_eq_false_iff] at none
      exact none.1.trans (inSet_empty q).symm
    · exact read

theorem requestSlot (h : FramesSound s) : FramesSound s.requestSlot := by
  cases found : lowestFree s.store.frames with
  | none =>
    have skipped : s.requestSlot = (s.countLink .noSlot 1).setReceiver .skipping := by
      rw [State.requestSlot, found]
    rw [skipped]
    exact h.of_frames (by simp) (by simp [State.setReceiver])
  | some k =>
    obtain ⟨frame, receiver⟩ := State.requestSlot_granted found
    refine ⟨fun j freed => ?_, fun j empty => ?_, fun j stores => ?_⟩
    · rw [frame] at freed ⊢
      split at freed
      · cases freed
      · next other => rw [if_neg other]; exact h.free j freed
    · rw [frame] at empty ⊢
      split at empty
      · exact absurd empty (by decide)
      · next other => rw [if_neg other]; exact h.held j empty
    · rw [receiver] at stores
      cases stores
      rw [frame, if_pos rfl]
      exact ⟨rfl, rfl⟩

theorem openBuild (h : FramesSound s) {k : Handle} {n : Nat}
    (granted : s.grantBuild p (granulesFor n) = some k) :
    FramesSound (s.openBuild p k n) := by
  have free : (s.frame k).state = .free := by
    unfold State.grantBuild at granted
    split at granted
    · cases granted
    · exact (lowestFree_eq_some_iff.mp granted).1
  have frame : ∀ j, (s.openBuild p k n).frame j = if j = k
      then Frame.build p n (s.store.freeList.take (granulesFor n)) else s.frame j := fun j => by
    simp [State.openBuild]
  have held : (Frame.build p n (s.store.freeList.take (granulesFor n))).holds.isEmpty = false := by
    cases p <;> rfl
  refine ⟨fun j freed => ?_, fun j empty => ?_, fun j stores => ?_⟩
  · rw [frame] at freed ⊢
    split at freed
    · cases freed
    · next other => rw [if_neg other]; exact h.free j freed
  · rw [frame] at empty ⊢
    split at empty
    · rw [held] at empty; cases empty
    · next other => rw [if_neg other]; exact h.held j empty
  · have before := h.storing j (by simpa using stores)
    have other : j ≠ k := by
      rintro rfl
      rw [free] at before
      cases before.1
    rw [frame, if_neg other]
    exact before

theorem storeArrival (h : FramesSound s) {k : Handle} {b : Byte} (stores : s.mac.receiver = .storing k) :
    FramesSound ((s.checkArrival b).storeArrival k b) := by
  have filling : (s.frame k).state = .filling := (h.storing k stores).1
  have arrival := (s.checkArrival b).storeArrival_arrival k b
  generalize (s.checkArrival b).storeArrival k b = t at arrival ⊢
  obtain ⟨others, same, receiver, -⟩ := arrival.body
  simp only [State.checkArrival_frame, State.checkArrival_keeps] at others same receiver
  obtain ⟨state, -, -, holds⟩ := same
  refine h.follows (fun j free => ?_) (fun j busy => ?_) (fun j empty => ?_) fun j storing => ?_
  · by_cases e : j = k
    · subst e; rw [free] at filling; cases filling
    · exact (others j e).trans free
  · by_cases e : j = k
    · subst e; rwa [state]
    · rwa [others j e]
  · by_cases e : j = k
    · subst e; rwa [holds] at empty
    · rwa [others j e] at empty
  · rw [receiver] at storing
    have before := h.storing j storing
    by_cases e : j = k
    · subst e; rwa [state, holds]
    · rwa [others j e]

theorem post (h : FramesSound s) {k : Handle} {v : PostFlags} (built : s.inBuildSet p k = true) :
    FramesSound (s.post p k v).1 := by
  have building := (State.inBuildSet_iff.mp built).1
  have other : ∀ {j}, s.frame j = Frame.free → j ≠ k := by
    rintro j free rfl
    rw [free] at building
    cases building
  rw [State.post_eq]
  refine h.closed (fun j free => ?_) (fun j busy => ?_) fun j stores => ?_
  · rw [State.countPost_frame]
    exact ((s.routed p k v).dropBuildHold_reduced p k j).free (State.routed_free (other free) free)
  · simp only [State.countPost_frame, State.dropBuildHold_frame, State.routed_body]
    split
    · simp
    · exact busy
  · have before := h.storing j (by simpa using stores)
    have apart : j ≠ k := by
      rintro rfl
      rw [building] at before
      cases before.1
    simpa [apart] using before

theorem endFrame (h : FramesSound s) {k : Handle} {e : EndOutcome} (stores : s.mac.receiver = .storing k) :
    FramesSound (State.closeEvent s (s.endFrame k e)) := by
  have filling := (h.storing k stores).1
  refine h.closed (fun j free => State.endFrame_free ?_ free) (fun j => State.endFrame_busy) ?_
  · rintro rfl
    rw [free] at filling
    cases filling
  · simp

theorem effect {u : State} {r : Option ReadStream} (h : FramesSound s) (e : Effect s p u r) :
    FramesSound u := by
  cases e with
  | nothing => exact h
  | leave => exact h.reduced (s.teardown_reduced p) (by simp [Holds.withoutStation])
  | suspend =>
    exact h.reduced ((State.departActive_reduced _ p).of_frames (by simp)) (by simp)
  | rxrelease active k => exact h.reduced (s.removeEntry_reduced p k) (by simp)
  | cancelBuild active k => exact h.reduced (s.dropBuildHold_reduced p k) (by simp)
  | cancelPost active e => exact h.reduced (s.cancelPost_reduced p e) (by simp)
  | propose active r => exact h.reduced (s.propose_reduced p r) (by simp)
  | endorse active o => exact h.reduced (s.settleProposal_reduced _) (by simp)
  | txopen active k n fits room granted => exact (h.openBuild granted).closedAfter s
  | txpost active k v built => exact h.post built
  | rxread => exact h.addReadHold _
  | join | resume | setaccept | claim | draft | publish | disable | retire | txwrite | txdone | object =>
    exact h.of_frames (by simp) (by simp)
  | events | setmask | snapshot => exact h.of_frames (by simp) (by simp)

theorem compareInputs (h : FramesSound s) : FramesSound s.compareInputs := by
  unfold State.compareInputs State.moveUp
  split
  · exact takeWork (h.of_frames (by simp) (by simp))
  · exact h

theorem followInputs (h : FramesSound b) (frames : ∀ k, s.frame k = b.frame k)
    (receiver : s.mac.receiver = b.mac.receiver) :
    FramesSound (State.closeEvent b s.followInputs) := by
  have sound : FramesSound s := h.of_frames frames (by simp [receiver])
  unfold State.followInputs
  split
  · unfold State.moveUp
    exact (takeWork (sound.of_frames (by simp) (by simp))).closedAfter b
  · refine h.reduced (s.moveDown_reduced.of_frames frames) (by simp)
  · exact sound.closedAfter b

theorem dropForSpeed (h : FramesSound b) (frames : ∀ k, s.frame k = b.frame k)
    (receiver : s.mac.receiver = b.mac.receiver) :
    FramesSound (State.closeEvent b s.dropForSpeed) := by
  have sound : FramesSound s := h.of_frames frames (by simp [receiver])
  unfold State.dropForSpeed
  split
  · exact sound.closedAfter b
  · refine h.reduced ((State.moveDown_reduced _).of_frames (by simpa using frames)) (by simp)

end FramesSound

theorem framesSound_eventsKeep : EventsKeep FramesSound where
  quiet _ _ _ h := h.of_frames (by simp) (by simp)
  port _ _ _ h _ := h.of_frames (by simp) (by simp)
  effect _ _ _ _ _ h e _ _ _ := (h.effect e).of_frames (by simp) (by simp)
  rise s p v h _ _ := h.reduced ((s.dropReadHold_reduced p).to_frames (by simp)) (by simp)
  lastByte s p v r h _ _ := h.reduced ((State.releaseRead_reduced _ p r).of_frames (by simp)) (by simp)
  presentFall p s h _ := by
    have low : FramesSound (s.setPresent p false) := h.of_frames (by simp) (by simp)
    exact low.reduced (State.endSession_reduced _ p) (by simp [Holds.withoutStation])
  present _ _ _ h _ := h.of_frames (by simp) (by simp)
  deviceReset s t ran _ := by
    cases ran
    have free : ∀ k, State.reset.frame k = Frame.free := fun k => Table.get_const _ k
    exact ⟨fun k _ => free k, fun k _ => congrArg Frame.state (free k), by simp [State.reset, Mac.reset]⟩
  phyInputChange i v s h := h.followInputs (by simp) (by simp)
  speedChange _ s h := h.dropForSpeed (by simp) rfl
  linkInputCompare _ h := FramesSound.compareInputs (h.of_frames (by simp) (by simp))
  frameStart _ _ h _ _ := h.requestSlot
  byteArrival _ s _ h stores := (h.storeArrival stores).closedAfter s
  frameEnd _ _ _ h stores := h.endFrame stores
  skipped _ h _ := h.of_frames (by simp) (by simp [State.setReceiver])
  transmissionComplete s p k t h _ := by
    refine FramesSound.takeWork (h.reduced ((State.sendEnded_reduced _ p k).of_frames (by simp)) ?_)
    simp
  flowControlComplete _ _ _ h _ := FramesSound.takeWork (h.of_frames (by simp) (by simp))
  pauseTimerExpiry _ _ h _ := FramesSound.takeWork (h.of_frames (by simp) (by simp))
  refreshTimerExpiry _ _ _ _ h _ _ := h.of_frames (by simp) (by simp)
  holdLimitExpiry p s t h _ := h.reduced ((State.expireQueue_reduced _ p).of_frames (by simp)) (by simp)
  proposalExpiry _ _ h _ := h.of_frames (by simp) (by simp)

end Sys2Proof.Machine
end

section
/-! Every step keeps each granule exactly once in the free list or in the chain of one frame (R1, R3). -/

namespace Sys2Proof.Machine

/-! ### Counting granules -/

/-- How often a granule stands in the free list and the chains together. -/
def State.granuleCount (s : State) (g : Granule) : Nat := (s.store.freeList ++ s.chains).count g

theorem State.chains_eq (s : State) :
    s.chains = (List.finRange 128).flatMap fun h => (s.frame h).chain := by
  rw [State.chains, Table.rows_eq_map, List.flatMap_map]
  rfl

theorem State.granuleCount_eq (s : State) (g : Granule) : s.granuleCount g =
    s.store.freeList.count g + ∑ h : Handle, (s.frame h).chain.count g := by
  rw [State.granuleCount, List.count_append, State.chains_eq, List.count_flatMap, Fin.sum_univ_def]
  rfl

/-- The count depends on the free list and the chains alone. -/
theorem State.granuleCount_congr {s t : State} (freeList : t.store.freeList = s.store.freeList)
    (chains : ∀ k, (t.frame k).chain = (s.frame k).chain) (g : Granule) :
    t.granuleCount g = s.granuleCount g := by
  rw [State.granuleCount_eq, State.granuleCount_eq, freeList]
  simp only [chains]

/-- A release moves whole chains to the free list. -/
theorem State.closeEvent_granuleCount (b s : State) (g : Granule) :
    (State.closeEvent b s).granuleCount g = s.granuleCount g := by
  have moved : ∀ h, (if lostLastHold (b.frame h) (s.frame h) = true then (s.frame h).chain else []).count g +
      ((State.closeEvent b s).frame h).chain.count g = (s.frame h).chain.count g := by
    intro h
    rw [State.closeEvent_frame]
    split <;> simp [Frame.free]
  rw [State.granuleCount_eq, State.granuleCount_eq, State.closeEvent_freeList, List.count_append,
    List.count_flatMap, ← Fin.sum_univ_def, Nat.add_assoc, ← Finset.sum_add_distrib]
  exact congrArg _ (Finset.sum_congr rfl fun h _ => moved h)

/-- A sum of which one term changed. -/
theorem sum_changed {f g : Handle → Nat} {h : Handle} (others : ∀ k, k ≠ h → g k = f k) :
    ∑ k, g k + f h = ∑ k, f k + g h := by
  have rest : ∑ k ∈ Finset.univ.erase h, g k = ∑ k ∈ Finset.univ.erase h, f k :=
    Finset.sum_congr rfl fun k hk => others k (Finset.ne_of_mem_erase hk)
  rw [← Finset.add_sum_erase _ g (Finset.mem_univ h), ← Finset.add_sum_erase _ f (Finset.mem_univ h), rest]
  omega

/-- Granules taken from the head of the free list to the end of one chain. -/
theorem State.granuleCount_taken {s t : State} {h : Handle} {n : Nat}
    (freeList : t.store.freeList = s.store.freeList.drop n)
    (others : ∀ k, k ≠ h → (t.frame k).chain = (s.frame k).chain)
    (chain : (t.frame h).chain = (s.frame h).chain ++ s.store.freeList.take n) (g : Granule) :
    t.granuleCount g = s.granuleCount g := by
  have split : s.store.freeList.count g =
      (s.store.freeList.take n).count g + (s.store.freeList.drop n).count g := by
    rw [← List.count_append, List.take_append_drop]
  have changed := sum_changed (f := fun k => (s.frame k).chain.count g)
    (g := fun k => (t.frame k).chain.count g) (h := h) fun k other => by simp only [others k other]
  simp only [chain, List.count_append] at changed
  rw [State.granuleCount_eq, State.granuleCount_eq, freeList]
  omega

/-! ### Each granule once -/

/-- Each granule stands exactly once in the free list or in one chain (R1). -/
def GranulesOnce (s : State) : Prop := ∀ g, s.granuleCount g = 1

namespace GranulesOnce

variable {s t : State} {p : Station}

theorem congr (h : GranulesOnce s) (freeList : t.store.freeList = s.store.freeList)
    (chains : ∀ k, (t.frame k).chain = (s.frame k).chain) : GranulesOnce t := fun g =>
  (State.granuleCount_congr freeList chains g).trans (h g)

theorem closed (h : GranulesOnce s) (b : State) : GranulesOnce (State.closeEvent b s) := fun g =>
  (State.closeEvent_granuleCount b s g).trans (h g)

/-- The close of an event that left the free list and the chains as they were. -/
theorem closes (h : GranulesOnce s) {b : State} (freeList : t.store.freeList = s.store.freeList)
    (chains : ∀ k, (t.frame k).chain = (s.frame k).chain) : GranulesOnce (State.closeEvent b t) :=
  (h.congr freeList chains).closed b

theorem openBuild (h : GranulesOnce s) (sound : FramesSound s) {k : Handle} {n : Nat}
    (granted : s.grantBuild p (granulesFor n) = some k) : GranulesOnce (s.openBuild p k n) := fun g => by
  have free : (s.frame k).state = .free := by
    unfold State.grantBuild at granted
    split at granted
    · cases granted
    · exact (lowestFree_eq_some_iff.mp granted).1
  refine (State.granuleCount_taken (n := granulesFor n) (h := k) ?_ (fun j other => ?_) ?_ g).trans (h g)
  · simp [State.openBuild]
  · simp [State.openBuild, other]
  · rw [sound.free k free]
    simp [State.openBuild, Frame.build, Frame.free]

theorem requestSlot (h : GranulesOnce s) (sound : FramesSound s) : GranulesOnce s.requestSlot := by
  cases found : lowestFree s.store.frames with
  | none =>
    have skipped : s.requestSlot = (s.countLink .noSlot 1).setReceiver .skipping := by
      rw [State.requestSlot, found]
    rw [skipped]
    exact h.congr (by simp) (by simp)
  | some k =>
    obtain ⟨frame, -⟩ := State.requestSlot_granted found
    refine h.congr (by simp) fun j => ?_
    rw [frame]
    split
    · next e =>
      rw [e, sound.free k (lowestFree_eq_some_iff.mp found).1]
      rfl
    · rfl

theorem storeArrival (h : GranulesOnce s) (k : Handle) (b : Byte) :
    GranulesOnce (s.storeArrival k b) := fun g => by
  obtain ⟨others, -, -, n, freeList, chain⟩ := (s.storeArrival_arrival k b).body
  exact (State.granuleCount_taken freeList (fun j other => congrArg Frame.chain (others j other)) chain g).trans
    (h g)

theorem effect {u : State} {r : Option ReadStream} (h : GranulesOnce s) (sound : FramesSound s)
    (e : Effect s p u r) : GranulesOnce u := by
  cases e with
  | nothing => exact h
  | txopen active k n fits room granted => exact (h.openBuild sound granted).closed s
  | txpost active k v built =>
    rw [State.post_eq]
    exact h.closes (by simp) (by simp)
  | leave | suspend | rxrelease | cancelBuild | cancelPost | propose | endorse =>
    exact h.closes (by simp) (by simp)
  | join | resume | setaccept | claim | draft | publish | disable | retire | rxread | txwrite | txdone |
    object => exact h.congr (by simp) (by simp)
  | events | setmask | snapshot => exact h.congr (by simp) (by simp)

end GranulesOnce

theorem granulesOnce_eventsGive : EventsGive GranulesSound GranulesOnce where
  quiet _ _ _ h := GranulesOnce.congr h.2 (by simp) (by simp)
  port _ _ _ h _ := GranulesOnce.congr h.2 (by simp) (by simp)
  effect _ _ _ _ _ h e _ _ _ := (GranulesOnce.effect h.2 h.1 e).congr (by simp) (by simp)
  rise _ _ _ h _ _ := GranulesOnce.closes h.2 (by simp) (by simp)
  lastByte _ _ _ _ h _ _ := GranulesOnce.closes h.2 (by simp) (by simp)
  presentFall _ _ h _ := GranulesOnce.closes h.2 (by simp) (by simp)
  present _ _ _ h _ := GranulesOnce.congr h.2 (by simp) (by simp)
  deviceReset s t ran _ := by
    cases ran
    intro g
    refine (State.granuleCount_congr (s := State.reset) rfl (fun _ => rfl) g).trans ?_
    have list : State.reset.store.freeList = List.finRange 512 := by
      simp only [State.reset, FrameStore.reset]
    have free : ∀ k, (State.reset.frame k).chain = [] := fun k => congrArg Frame.chain (Table.get_const _ k)
    rw [State.granuleCount_eq, list,
      List.count_eq_one_of_mem (List.nodup_finRange 512) (List.mem_finRange g)]
    simp [free]
  phyInputChange _ _ _ h := GranulesOnce.closes h.2 (by simp) (by simp)
  speedChange _ _ h := GranulesOnce.closes h.2 (by simp) (by simp)
  linkInputCompare _ h := GranulesOnce.congr h.2 (by simp) (by simp)
  frameStart _ _ h _ _ := GranulesOnce.requestSlot h.2 h.1
  byteArrival b s k h _ := by
    have checked : GranulesOnce (s.checkArrival b) := GranulesOnce.congr h.2 (by simp) (by simp)
    exact (checked.storeArrival k b).closed s
  frameEnd _ _ _ h _ := GranulesOnce.closes h.2 (by simp) (by simp)
  skipped _ h _ := GranulesOnce.congr h.2 (by simp) (by simp)
  transmissionComplete s p k t h _ := by
    have ended : GranulesOnce (State.closeEvent s ((s.reach t).sendEnded p k)) :=
      GranulesOnce.closes h.2 (by simp) (by simp)
    exact ended.congr (by simp) (by simp)
  flowControlComplete _ _ _ h _ := GranulesOnce.congr h.2 (by simp) (by simp)
  pauseTimerExpiry _ _ h _ := GranulesOnce.congr h.2 (by simp) (by simp)
  refreshTimerExpiry _ _ _ _ h _ _ := GranulesOnce.congr h.2 (by simp) (by simp)
  holdLimitExpiry _ _ _ h _ := GranulesOnce.closes h.2 (by simp) (by simp)
  proposalExpiry _ _ h _ := GranulesOnce.congr h.2 (by simp) (by simp)

/-- Settles O54: a granule moves between the free list and a chain whole, at a grant and at a release. -/
theorem stepKeepsGranulesSound : Obligations.StepKeepsGranulesSound :=
  EventsKeep.step ((framesSound_eventsKeep.of_imp fun _ h => h.1).and granulesOnce_eventsGive)

end Sys2Proof.Machine
end

section
/-! The intake queues after each operation that expires or empties them (R79, R106, R108, R158), and what it means that
each hold of a kind stands for an entry of a list. -/

namespace Sys2Proof.Machine

/-! ### The queues that an installation shortens -/

theorem State.install_intake (s : State) (n : Half) (r : PartitionRecord) (q : Station) :
    (s.install n r).intake.get q = (s.intake.get q).drop (expiredAt s r q) := by
  rw [State.install_eq, (State.raiseFlagEverywhere_keeps _ _).2.2.2.2.2.2.1,
    State.expireAtInstallation_written]
  split
  · next h =>
    have e := fun q => expiredAt_eq (n := n) q h
    simp only [State.expireQueue_intake, Per.get_set, reduceCtorEq, if_false,
      State.expireQueue_expiring, ne_eq, not_false_eq_true, ← e]
    cases q <;> rfl
  · next h =>
    rw [expiredAt_eq_zero q h]
    rfl

theorem State.settleProposal_intake (s : State) (o : Proposal) (q : Station) :
    (s.settleProposal o).intake.get q = (s.intake.get q).drop (settlementExpires s o q) := by
  unfold State.settleProposal settlementExpires
  split
  · exact s.install_intake _ _ q
  · rfl

theorem State.departActive_intake (s : State) (p q : Station) :
    (s.departActive p).intake.get q = (s.intake.get q).drop (departingExpires s p q) := by
  have none : departureInstalls s p = .none → departingExpires s p q = 0 := fun h => by
    rw [departingExpires, h]
  unfold State.departActive
  split
  · next unopened => rw [none (by simp [departureInstalls, unopened])]; rfl
  · next o opened =>
    split
    · next proposer => rw [none (by simp [departureInstalls, opened, proposer])]; simp
    · next other =>
      split
      · next required =>
        rw [State.settleProposal_intake]
        congr 1
        by_cases complete : eraseStation o.endorsed p = eraseStation o.required p <;>
          simp [settlementExpires, departingExpires, departureInstalls, opened, other, required, complete]
      · next unconcerned => rw [none (by simp [departureInstalls, opened, unconcerned])]; rfl

theorem State.propose_intake (s : State) (p : Station) (r : PartitionRecord) (q : Station) :
    (s.propose p r).intake.get q =
      (s.intake.get q).drop (if s.requiredFor p = 0 then expiredAt s r q else 0) := by
  unfold State.propose
  dsimp only [State.newProposal]
  split
  · exact State.install_intake _ _ _ q
  · simp

/-- The number of front entries that a teardown takes off each queue: all of the station's own. -/
def State.teardownDrops (s : State) (p q : Station) : Nat :=
  if q = p then (s.intake.get p).length else departureExpires s p q

theorem departureExpires_self (s : State) (p : Station) : departureExpires s p p = 0 := by
  unfold departureExpires
  split <;> simp

theorem State.teardown_intake (s : State) (p q : Station) :
    (s.teardown p).intake.get q = (s.intake.get q).drop (s.teardownDrops p q) := by
  have same : (s.teardown p).intake = ((s.offline p).departActive p).intake := by
    simp [State.teardown_eq]
  rw [same, State.departActive_intake, departingExpires_offline, State.offline_intake, State.teardownDrops]
  by_cases e : q = p
  · simp [e]
  · simp [Per.get_set, e]

@[simp] theorem State.teardown_posts (s : State) (p : Station) :
    (s.teardown p).posts = s.posts.set p { queue := [], completions := [], number := 0 } := by
  simp [State.teardown, State.dropStationHolds]

/-! ### Holds that stand for the entries of a list -/

/-- Each hold of a kind stands for a handle in a list of its station, and no list names a handle twice. -/
structure HeldBy (holds : Handle → StationSet) (handles : Station → List Handle) : Prop where
  stands : ∀ p h, inSet (holds h) p = true ↔ h ∈ handles p
  once : ∀ p, (handles p).Nodup

namespace HeldBy

variable {holds holds' : Handle → StationSet} {handles handles' : Station → List Handle}

theorem congr (h : HeldBy holds handles) (sameHolds : ∀ k, holds' k = holds k)
    (sameHandles : ∀ q, handles' q = handles q) : HeldBy holds' handles' where
  stands p k := by rw [sameHolds, sameHandles]; exact h.stands p k
  once p := by rw [sameHandles]; exact h.once p

/-- No holds, and nothing that they could stand for. -/
theorem of_nothing (none : ∀ k, holds k = 0) (empty : ∀ q, handles q = []) : HeldBy holds handles where
  stands p k := by simp [none, empty]
  once p := by simp [empty]

/-- Every list loses some front entries, and the holds go with them. -/
theorem dropped (h : HeldBy holds handles) (gone : Station → Nat)
    (dropped : ∀ q, handles' q = (handles q).drop (gone q))
    (kept : ∀ k q, inSet (holds' k) q = true ↔ inSet (holds k) q = true ∧ k ∉ (handles q).take (gone q)) :
    HeldBy holds' handles' where
  stands p k := by
    have once := h.once p
    rw [kept, h.stands, dropped]
    rw [← List.take_append_drop (gone p) (handles p)] at once
    have apart : k ∈ (handles p).take (gone p) → k ∉ (handles p).drop (gone p) := fun m n =>
      (List.nodup_append.mp once).2.2 k m k n rfl
    have cases : k ∈ handles p ↔ k ∈ (handles p).take (gone p) ∨ k ∈ (handles p).drop (gone p) := by
      rw [← List.mem_append, List.take_append_drop]
    tauto
  once p := by rw [dropped]; exact (h.once p).sublist (List.drop_sublist _ _)

/-- One entry of one list goes, wherever it stands, and its hold with it. -/
theorem erased (h : HeldBy holds handles) (p : Station) (x : Handle)
    (erased : ∀ q, handles' q = if q = p then (handles q).filter (fun k => k ≠ x) else handles q)
    (kept : ∀ k q, inSet (holds' k) q = true ↔ inSet (holds k) q = true ∧ ¬ (k = x ∧ q = p)) :
    HeldBy holds' handles' where
  stands q k := by
    rw [kept, h.stands, erased]
    by_cases e : q = p <;> simp [e]
  once q := by
    rw [erased]
    split
    · exact (h.once q).filter _
    · exact h.once q

/-- A handle that stands in none of some lists is put at their ends, and the holds come with it. -/
theorem added (h : HeldBy holds handles) (x : Handle) (whom : Station → Prop) [DecidablePred whom]
    (fresh : ∀ q, whom q → x ∉ handles q)
    (added : ∀ q, handles' q = if whom q then handles q ++ [x] else handles q)
    (kept : ∀ k q, inSet (holds' k) q = true ↔ inSet (holds k) q = true ∨ (k = x ∧ whom q)) :
    HeldBy holds' handles' where
  stands q k := by
    rw [kept, h.stands, added]
    by_cases e : whom q <;> simp [e]
  once q := by
    rw [added]
    split
    · next e =>
      refine List.nodup_append.mpr ⟨h.once q, by simp, fun a ha b hb => ?_⟩
      rw [List.mem_singleton.mp hb]
      rintro rfl
      exact fresh q e ha
    · exact h.once q

end HeldBy

end Sys2Proof.Machine
end

section
/-! Every hold with what it stands for, taken apart by kind: what each change of the hub makes of the holds of one kind
(R8 to R13, R95, R127). -/

namespace Sys2Proof.Machine

theorem State.closeEvent_holds (b s : State) (k : Handle) :
    ((State.closeEvent b s).frame k).holds = (s.frame k).holds := by
  rw [State.closeEvent_frame]
  split
  · next lost =>
    simp only [lostLastHold, Bool.and_eq_true, Holds.isEmpty, beq_iff_eq] at lost
    exact lost.2.symm
  · rfl

/-! ### The holds that fit the state of a record (Table 1-4) -/

/-- The holds of Table 1-4 in each state of one record. -/
structure Frame.Shaped (f : Frame) : Prop where
  filling : f.state = .filling → f.holds = { Holds.none with fill := true }
  building : f.state = .building → ∃ p,
    f.origin = some (.station p) ∧ f.holds = { Holds.none with build := setOf p }
  settled : f.state = .settled → f.holds.fill = false ∧ f.holds.build = 0

theorem Frame.shaped_free : Frame.free.Shaped := ⟨nofun, nofun, nofun⟩

theorem Frame.shaped_filling : Frame.filling.Shaped := ⟨fun _ => rfl, nofun, nofun⟩

theorem Frame.shaped_build (p : Station) (n : Nat) (c : List Granule) : (Frame.build p n c).Shaped :=
  ⟨nofun, fun _ => ⟨p, rfl, rfl⟩, nofun⟩

theorem set_empty_of_within {a : StationSet} (h : ∀ q, inSet a q = true → inSet (0#4) q = true) :
    a = 0 := set_ext fun q => by
  rw [Bool.eq_iff_iff]
  exact ⟨h q, fun e => absurd e (by simp)⟩

theorem Holds.eq_of_within_fill {x : Holds} (w : x.Within { Holds.none with fill := true })
    (held : x.isEmpty = false) : x = { Holds.none with fill := true } := by
  obtain ⟨-, build, intake, read, post, wire⟩ := w
  have unwired : x.wire = false := Bool.eq_false_iff.mpr fun e => absurd (wire e) (by simp [Holds.none])
  cases fill : x.fill with
  | true =>
    exact Holds.ext fill (set_empty_of_within build) (set_empty_of_within intake) (set_empty_of_within read)
      (set_empty_of_within post) unwired
  | false =>
    rw [Holds.isEmpty_iff.mpr ⟨fill, set_empty_of_within build, set_empty_of_within intake,
      set_empty_of_within read, set_empty_of_within post, unwired⟩] at held
    cases held

theorem Holds.eq_of_within_build {x : Holds} {p : Station}
    (w : x.Within { Holds.none with build := setOf p }) (held : x.isEmpty = false) :
    x = { Holds.none with build := setOf p } := by
  obtain ⟨fill, build, intake, read, post, wire⟩ := w
  have unwired : x.wire = false := Bool.eq_false_iff.mpr fun e => absurd (wire e) (by simp [Holds.none])
  have unfilled : x.fill = false := Bool.eq_false_iff.mpr fun e => absurd (fill e) (by simp [Holds.none])
  have only : ∀ q, inSet x.build q = true → p = q := fun q e => by simpa using build q e
  cases own : inSet x.build p with
  | true =>
    refine Holds.ext unfilled (set_ext fun q => ?_) (set_empty_of_within intake)
      (set_empty_of_within read) (set_empty_of_within post) unwired
    rw [inSet_setOf, Bool.eq_iff_iff, decide_eq_true_iff]
    exact ⟨only q, fun e => e ▸ own⟩
  | false =>
    have none : x.build = 0 := set_ext fun q => by
      rw [Bool.eq_iff_iff]
      refine ⟨fun e => ?_, fun e => absurd e (by simp)⟩
      rw [← only q e, own] at e
      cases e
    rw [Holds.isEmpty_iff.mpr ⟨unfilled, none, set_empty_of_within intake, set_empty_of_within read,
      set_empty_of_within post, unwired⟩] at held
    cases held

namespace Frame.Shaped

variable {f g : Frame} {p : Station}

/-- A record that lost holds, but not its last one, has the holds of its state. -/
theorem reduced (h : f.Shaped) (r : f.Reduced g) (held : g.holds.isEmpty = false) : g.Shaped where
  filling e := Holds.eq_of_within_fill (h.filling (r.state ▸ e) ▸ r.2) held
  building e := by
    obtain ⟨p, origin, build⟩ := h.building (r.state ▸ e)
    refine ⟨p, ?_, Holds.eq_of_within_build (build ▸ r.2) held⟩
    rw [r.1]
    exact origin
  settled e := by
    obtain ⟨unfilled, unbuilt⟩ := h.settled (r.state ▸ e)
    refine ⟨Bool.eq_false_iff.mpr fun e => ?_, set_empty_of_within fun q e => ?_⟩
    · rw [r.2.fill e] at unfilled
      cases unfilled
    · have := r.2.build q e
      rwa [unbuilt] at this

/-- A record with an intake, read, post or wire hold is SETTLED, and another such hold leaves it as it should be. -/
theorem settledOf (h : f.Shaped) (busy : f.state ≠ .free) (intake : f.holds.intake ≠ 0 ∨ f.holds.post ≠ 0) :
    f.state = .settled := by
  cases state : f.state with
  | free => exact absurd state busy
  | settled => rfl
  | filling =>
    rw [h.filling state] at intake
    exact absurd rfl (intake.elim id id)
  | building =>
    obtain ⟨p, -, build⟩ := h.building state
    rw [build] at intake
    exact absurd rfl (intake.elim id id)

theorem ofSettled (state : f.state = .settled) (fill : f.holds.fill = false) (build : f.holds.build = 0) :
    f.Shaped where
  filling e := by rw [state] at e; cases e
  building e := by rw [state] at e; cases e
  settled _ := ⟨fill, build⟩

/-- A record whose holds, state and origin are what they were. -/
theorem same (h : f.Shaped) (state : g.state = f.state) (origin : g.origin = f.origin)
    (holds : g.holds = f.holds) : g.Shaped where
  filling e := holds ▸ h.filling (state ▸ e)
  building e := by
    rw [origin, holds]
    exact h.building (state ▸ e)
  settled e := holds ▸ h.settled (state ▸ e)

/-- A record that keeps its state, its origin and its holds but the wire hold, and the wire hold unless it is SETTLED. -/
theorem rewired (h : f.Shaped) (state : g.state = f.state) (origin : g.origin = f.origin)
    (fill : g.holds.fill = f.holds.fill) (build : g.holds.build = f.holds.build)
    (intake : g.holds.intake = f.holds.intake) (read : g.holds.read = f.holds.read)
    (post : g.holds.post = f.holds.post) (wire : f.state ≠ .settled → g.holds.wire = f.holds.wire) :
    g.Shaped := by
  by_cases settled : f.state = .settled
  · obtain ⟨unfilled, unbuilt⟩ := h.settled settled
    exact ofSettled (state.trans settled) (fill.trans unfilled) (build.trans unbuilt)
  · exact h.same state origin (Holds.ext fill build intake read post (wire settled))

end Frame.Shaped

/-- Every record carries holds that fit its state. -/
def FramesShaped (s : State) : Prop := ∀ k, (s.frame k).Shaped

/-! ### The lists that holds stand for -/

/-- The handles in the intake queue of a station. -/
def State.intakeHandles (s : State) (p : Station) : List Handle := (s.intake.get p).map (·.handle)

/-- The handles in the post queue of a station. -/
def State.postHandles (s : State) (p : Station) : List Handle := (s.posts.get p).queue.map (·.handle)

/-- The handle of the RXREAD under way on the port of a station, if there is one. -/
def State.readHandles (s : State) (p : Station) : List Handle :=
  ((s.ports.get p).reading.map (·.handle)).toList

/-- Intake holds and queue entries. -/
def IntakeHeld (s : State) : Prop := HeldBy (fun k => (s.frame k).holds.intake) s.intakeHandles

/-- Post holds and post entries. -/
def PostsHeld (s : State) : Prop := HeldBy (fun k => (s.frame k).holds.post) s.postHandles

/-- Read holds and the streams of the ports, which stream nothing before the command-taken point. -/
structure ReadsHeld (s : State) : Prop where
  held : HeldBy (fun k => (s.frame k).holds.read) s.readHandles
  untaken : ∀ p, (s.ports.get p).phase.untaken → (s.ports.get p).reading = none

/-- The wire hold, the started post entry and the transmitter. -/
structure WireHeld (s : State) : Prop where
  wire : ∀ h, (s.frame h).holds.wire = true ↔ ∃ p e, s.mac.tx = .station p h e
  sent : ∀ p h e, s.mac.tx = .station p h e → inSet (s.frame h).holds.post p = true →
    ∃ x more, (s.posts.get p).queue = x :: more ∧ x.handle = h ∧ x.started = true
  started : ∀ p, ∀ x ∈ (s.posts.get p).queue, x.started = true → ∃ e, s.mac.tx = .station p x.handle e

theorem mem_intakeHandles {s : State} {p : Station} {h : Handle} :
    h ∈ s.intakeHandles p ↔ ∃ e ∈ s.intake.get p, e.handle = h := List.mem_map

theorem mem_postHandles {s : State} {p : Station} {h : Handle} :
    h ∈ s.postHandles p ↔ ∃ e ∈ (s.posts.get p).queue, e.handle = h := List.mem_map

theorem mem_readHandles {s : State} {p : Station} {h : Handle} :
    h ∈ s.readHandles p ↔ ∃ r, (s.ports.get p).reading = some r ∧ r.handle = h := by
  simp [State.readHandles]

/-- The invariant of the holds, by the kinds of holds. -/
theorem holdsSound_iff {s : State} : HoldsSound s ↔ FramesSound s ∧ FramesShaped s ∧ IntakeHeld s ∧
    PostsHeld s ∧ ReadsHeld s ∧ WireHeld s := by
  constructor
  · intro h
    refine ⟨h.frames, fun k => ⟨h.filling k, h.building k, h.settled k⟩, ⟨fun p k => ?_, h.intakeOnce⟩,
      ⟨fun p k => ?_, h.postOnce⟩, ⟨⟨fun p k => ?_, fun p => ?_⟩, fun p untaken => ?_⟩,
      ⟨h.wire, h.sent, h.started⟩⟩
    · rw [mem_intakeHandles]; exact h.intake p k
    · rw [mem_postHandles]; exact h.post p k
    · rw [mem_readHandles]; exact h.read p k
    · unfold State.readHandles
      cases (s.ports.get p).reading <;> simp
    · exact h.reading p (Phase.untaken_iff.mp untaken)
  · rintro ⟨frames, shaped, intake, posts, reads, wire⟩
    exact {
      frames := frames
      filling := fun k => (shaped k).filling
      building := fun k => (shaped k).building
      settled := fun k => (shaped k).settled
      intake := fun p k => (intake.stands p k).trans mem_intakeHandles
      intakeOnce := intake.once
      post := fun p k => (posts.stands p k).trans mem_postHandles
      postOnce := posts.once
      read := fun p k => (reads.held.stands p k).trans mem_readHandles
      reading := fun p e => reads.untaken p (Phase.untaken_iff.mpr e)
      wire := wire.wire
      sent := wire.sent
      started := wire.started }

/-! ### Changes that leave the holds of a kind and what they stand for alone -/

section

variable {s t : State}

theorem FramesShaped.congr (h : FramesShaped s) (frames : ∀ k, t.frame k = s.frame k) : FramesShaped t :=
  fun k => frames k ▸ h k

theorem IntakeHeld.congr (h : IntakeHeld s)
    (holds : ∀ k, (t.frame k).holds.intake = (s.frame k).holds.intake) (intake : t.intake = s.intake) :
    IntakeHeld t :=
  HeldBy.congr h holds fun q => by rw [State.intakeHandles, intake]; rfl

theorem PostsHeld.congr (h : PostsHeld s)
    (holds : ∀ k, (t.frame k).holds.post = (s.frame k).holds.post)
    (posts : ∀ p, t.postHandles p = s.postHandles p) : PostsHeld t := HeldBy.congr h holds posts

theorem ReadsHeld.congr (h : ReadsHeld s)
    (holds : ∀ k, (t.frame k).holds.read = (s.frame k).holds.read) (ports : t.ports = s.ports) :
    ReadsHeld t where
  held := h.held.congr holds fun q => by rw [State.readHandles, ports]; rfl
  untaken p := by rw [ports]; exact h.untaken p

/-- The wire part survives a change of the queues that keeps a started front entry where it was, and the loss of post
holds. -/
theorem WireHeld.congr (h : WireHeld s)
    (wire : ∀ k, (t.frame k).holds.wire = (s.frame k).holds.wire)
    (tx : ∀ p k e, t.mac.tx = .station p k e ↔ s.mac.tx = .station p k e)
    (front : ∀ p k e, s.mac.tx = .station p k e → inSet (t.frame k).holds.post p = true →
      inSet (s.frame k).holds.post p = true ∧ ∀ x more, (s.posts.get p).queue = x :: more → x.handle = k →
        x.started = true → ∃ more', (t.posts.get p).queue = x :: more')
    (started : ∀ p, ∀ x ∈ (t.posts.get p).queue, x.started = true → x ∈ (s.posts.get p).queue) :
    WireHeld t where
  wire k := by simp only [wire, tx]; exact h.wire k
  sent p k e sends held := by
    rw [tx] at sends
    obtain ⟨before, kept⟩ := front p k e sends held
    obtain ⟨x, more, queue, handle, start⟩ := h.sent p k e sends before
    obtain ⟨more', queue'⟩ := kept x more queue handle start
    exact ⟨x, more', queue', handle, start⟩
  started p x mem start := by simp only [tx]; exact h.started p x (started p x mem start) start

theorem WireHeld.same (h : WireHeld s) (wire : ∀ k, (t.frame k).holds.wire = (s.frame k).holds.wire)
    (post : ∀ k, (t.frame k).holds.post = (s.frame k).holds.post)
    (tx : ∀ p k e, t.mac.tx = .station p k e ↔ s.mac.tx = .station p k e)
    (queue : ∀ p, (t.posts.get p).queue = (s.posts.get p).queue) : WireHeld t :=
  h.congr wire tx (fun p k _ _ held => ⟨post k ▸ held, fun _ more q _ _ => ⟨more, (queue p).trans q⟩⟩)
    fun p _ mem _ => queue p ▸ mem

end

/-! ### Kind by kind -/

/-- Queues that lose front entries, with their intake holds. -/
theorem IntakeHeld.dropped {s t : State} (h : IntakeHeld s) (gone : Station → Nat)
    (intake : ∀ q, t.intake.get q = (s.intake.get q).drop (gone q))
    (holds : ∀ k q, inSet (t.frame k).holds.intake q = true ↔ inSet (s.frame k).holds.intake q = true ∧
      ¬ ∃ e ∈ (s.intake.get q).take (gone q), e.handle = k) : IntakeHeld t :=
  HeldBy.dropped h gone (fun q => by rw [State.intakeHandles, intake, List.map_drop]; rfl) fun k q => by
    rw [holds, State.intakeHandles, ← List.map_take, List.mem_map]

/-- The same, with the holds in the form that installations leave. -/
theorem IntakeHeld.lost {s t : State} (h : IntakeHeld s) (gone : Station → Nat)
    (intake : ∀ q, t.intake.get q = (s.intake.get q).drop (gone q))
    (holds : ∀ k, (t.frame k).holds.intake = (s.frame k).holds.intake &&& ~~~ losers s gone k) :
    IntakeHeld t :=
  h.dropped gone intake fun k q => by simp [holds]

theorem IntakeHeld.removed {s t : State} (h : IntakeHeld s) (p : Station) (x : Handle)
    (intake : t.intake = s.intake.set p (dropIntake (s.intake.get p) x))
    (holds : ∀ k, (t.frame k).holds.intake = if k = x then eraseStation (s.frame k).holds.intake p
      else (s.frame k).holds.intake) : IntakeHeld t := by
  refine HeldBy.erased h p x (fun q => ?_) fun k q => ?_
  · simp only [State.intakeHandles, intake, Per.get_set]
    split
    · next e => subst e; simp [dropIntake, List.filter_map, Function.comp_def]
    · rfl
  · rw [holds, inSet_erase_if]
    tauto

end Sys2Proof.Machine
end

section
/-! Every step keeps each hold with what it stands for (R8 to R13, R95, R127). -/

namespace Sys2Proof.Machine

/-! ### The generator's answer starts no station frame -/

theorem Mac.requested_station {m : Mac} {v : Speed} {now : Nat} {q : Half} {a : Bool} {r : Option Nat}
    {p : Station} {k : Handle} {e : Nat} :
    (m.requested v now q a r).tx = .station p k e ↔ m.tx = .station p k e := by
  unfold Mac.requested
  split
  · next idle => simp [idle]
  · rfl

theorem LengthAnswered.station {m n : Mac} {now length : Nat} {r : PartitionRecord}
    (h : LengthAnswered m n now length r) (p : Station) (k : Handle) (e : Nat) :
    n.tx = .station p k e ↔ m.tx = .station p k e := by
  cases hl : m.link with
  | down => rw [h.down hl]
  | up speed =>
    cases ha : m.gen.asserted
    · rcases Nat.lt_or_ge length r.pauseOn.toNat with hn | hn
      · rw [h.low speed hl ha hn]; exact Mac.requested_station
      · rw [h.enough ha hn]
    · rcases Nat.lt_or_ge length r.pauseOff.toNat with hn | hn
      · rw [h.short ha hn]
      · rw [h.resumed speed hl ha hn]; exact Mac.requested_station

theorem State.closeEvent_station (b s : State) (p : Station) (k : Handle) (e : Nat) :
    (State.closeEvent b s).mac.tx = .station p k e ↔ s.mac.tx = .station p k e := by
  unfold State.closeEvent
  dsimp only
  split
  · exact ((State.releaseLost b s).respond_answered _).station p k e
  · rfl

/-! ### What the taking of work makes of the wire hold and the post queues -/

/-- The taking of work sets the wire hold of a frame only for a front post entry. -/
theorem State.takeWork_wire {s : State} {k : Handle} (on : (s.takeWork.frame k).holds.wire = true) :
    (s.frame k).holds.wire = true ∨ ∃ p, k ∈ s.postHandles p := by
  have work := s.takeWork_work
  generalize s.takeWork = t at work on
  cases work with
  | busy => exact .inl on
  | flow => exact .inl (by simpa using on)
  | nothing => exact .inl (by simpa using on)
  | station speed p v e more up idle pending unpaused examined front =>
    rw [State.startStation_frame (s := { s with scheduler := v }) front speed k] at on
    by_cases same : k = e.handle
    · exact .inr ⟨p, by simp [State.postHandles, front, same]⟩
    · exact .inl (by simpa [same] using on)

theorem State.takeWork_wired {s : State} {k : Handle} (on : (s.frame k).holds.wire = true) :
    (s.takeWork.frame k).holds.wire = true := by
  have work := s.takeWork_work
  generalize s.takeWork = t at work ⊢
  cases work with
  | busy => exact on
  | flow => simpa using on
  | nothing => simpa using on
  | station speed p v e more up idle pending unpaused examined front =>
    rw [State.startStation_frame (s := { s with scheduler := v }) front speed k]
    dsimp only
    split
    · rfl
    · exact on

theorem State.takeWork_postHandles (s : State) (q : Station) :
    s.takeWork.postHandles q = s.postHandles q := by
  have work := s.takeWork_work
  generalize s.takeWork = t at work ⊢
  cases work with
  | busy => rfl
  | flow => simp [State.postHandles]
  | nothing => rfl
  | station speed p v e more up idle pending unpaused examined front =>
    rw [State.postHandles, State.startStation_posts (s := { s with scheduler := v }) front speed, Per.get_set]
    split
    · next same => subst same; simp [State.postHandles, front]
    · rfl

/-- The taking of work keeps the wire hold, the started entry and the transmitter together. -/
theorem WireHeld.takeWork {s : State} (h : WireHeld s)
    (busy : ∀ p, ∀ e ∈ (s.posts.get p).queue, (s.frame e.handle).state ≠ .free) : WireHeld s.takeWork := by
  have work := s.takeWork_work
  generalize s.takeWork = t at work ⊢
  cases work with
  | busy => exact h
  | flow speed q up idle pending =>
    exact h.same (by simp) (by simp) (by simp [State.startFlow, idle]) (by simp)
  | nothing v => exact h.same (by simp) (by simp) (by simp) (by simp)
  | station speed p v e more up idle pending unpaused examined front =>
    have frame := State.startStation_frame (s := { s with scheduler := v }) front speed
    have queues := State.startStation_posts (s := { s with scheduler := v }) front speed
    have mac := State.startStation_mac (s := { s with scheduler := v }) front speed
    have unwired : ∀ k, (s.frame k).holds.wire = false := fun k => Bool.eq_false_iff.mpr fun on => by
      obtain ⟨q, w, sends⟩ := (h.wire k).mp on
      rw [idle] at sends
      cases sends
    have unstarted : ∀ q, ∀ x ∈ (s.posts.get q).queue, ¬ x.started = true := fun q x mem on => by
      obtain ⟨w, sends⟩ := h.started q x mem on
      rw [idle] at sends
      cases sends
    refine ⟨fun k => ?_, fun q k w sends held => ?_, fun q x mem start => ?_⟩
    · rw [frame, mac]
      by_cases same : k = e.handle
      · subst same
        simp [busy p e (front ▸ List.mem_cons_self)]
      · simp [same, unwired, Ne.symm same]
    · rw [mac] at sends
      cases sends
      exact ⟨{ e with started := true }, more, by rw [queues]; simp, rfl, rfl⟩
    · rw [queues, Per.get_set] at mem
      rw [mac]
      split at mem
      · next same =>
        subst same
        rcases List.mem_cons.mp mem with rfl | mem
        · exact ⟨_, rfl⟩
        · exact absurd start (unstarted q x (front ▸ List.mem_cons_of_mem e mem))
      · exact absurd start (unstarted q x mem)

namespace HoldsSound

variable {b s t : State} {p : Station}

/-- A change that leaves the frames, the queues, the ports and the frame being sent alone. -/
theorem of_same (h : HoldsSound s) (frames : ∀ k, t.frame k = s.frame k) (intake : t.intake = s.intake)
    (queue : ∀ p, (t.posts.get p).queue = (s.posts.get p).queue) (ports : t.ports = s.ports)
    (tx : ∀ p k e, t.mac.tx = .station p k e ↔ s.mac.tx = .station p k e)
    (storing : ∀ k, t.mac.receiver = .storing k → s.mac.receiver = .storing k) : HoldsSound t := by
  obtain ⟨sound, shaped, intakes, posts, reads, wire⟩ := holdsSound_iff.mp h
  refine holdsSound_iff.mpr ⟨sound.of_frames frames storing, shaped.congr frames,
    intakes.congr (by simp [frames]) intake, posts.congr (by simp [frames]) fun q => ?_,
    reads.congr (by simp [frames]) ports, wire.same (by simp [frames]) (by simp [frames]) tx queue⟩
  rw [State.postHandles, queue]
  rfl

theorem setPort (h : HoldsSound s) {v : Port} (same : (s.ports.get p).sameReading v) :
    HoldsSound (s.setPort p v) := by
  obtain ⟨sound, shaped, intakes, posts, reads, wire⟩ := holdsSound_iff.mp h
  have handles : v.reading.map (·.handle) = (s.ports.get p).reading.map (·.handle) := by
    rcases same with ⟨same, -⟩ | ⟨none, untaken⟩
    · exact same
    · rw [none, reads.untaken p untaken]
  refine holdsSound_iff.mpr ⟨sound.of_frames (by simp) (by simp), shaped.congr (by simp),
    intakes.congr (by simp) (by simp), posts.congr (by simp) (by simp [State.postHandles]),
    ⟨reads.held.congr (by simp) fun q => ?_, fun q untaken => ?_⟩, wire.same (by simp) (by simp) (by simp) (by simp)⟩
  · simp only [State.readHandles, State.setPort_ports, Per.get_set]
    split
    · next e => rw [handles, e]
    · rfl
  · simp only [State.setPort_ports, Per.get_set] at untaken ⊢
    split
    · next e =>
      rw [if_pos e] at untaken
      rcases same with ⟨_, before⟩ | ⟨none, _⟩
      · rw [reads.untaken p (before untaken)] at handles
        simpa using handles
      · exact none
    · next e =>
      rw [if_neg e] at untaken
      exact reads.untaken q untaken

/-- The close of an event that left every kind of hold standing for what it should. -/
theorem closed (sound : FramesSound (State.closeEvent b s))
    (shaped : ∀ k, lostLastHold (b.frame k) (s.frame k) = false → (s.frame k).Shaped)
    (intake : IntakeHeld s) (posts : PostsHeld s) (reads : ReadsHeld s) (wire : WireHeld s) :
    HoldsSound (State.closeEvent b s) := by
  have kept := State.closeEvent_holds b s
  refine holdsSound_iff.mpr ⟨sound, fun k => ?_,
    intake.congr (fun k => by rw [kept]) (by simp),
    posts.congr (fun k => by rw [kept]) (by simp [State.postHandles]),
    reads.congr (fun k => by rw [kept]) (by simp),
    wire.same (fun k => by rw [kept]) (fun k => by rw [kept]) (State.closeEvent_station b s) (by simp)⟩
  rw [State.closeEvent_frame]
  split
  · exact Frame.shaped_free
  · next kept => exact shaped k (Bool.eq_false_iff.mpr kept)

/-- The close of an event that only took holds off frames, whose holds stand for what is left. -/
theorem closes (h : HoldsSound b) (reduced : b.Reduced s)
    (storing : ∀ k, s.mac.receiver = .storing k →
      b.mac.receiver = .storing k ∧ (s.frame k).holds.fill = (b.frame k).holds.fill)
    (intake : IntakeHeld s) (posts : PostsHeld s) (reads : ReadsHeld s) (wire : WireHeld s) :
    HoldsSound (State.closeEvent b s) := by
  obtain ⟨sound, shaped, -, -, -, -⟩ := holdsSound_iff.mp h
  refine closed (sound.reduced reduced storing) (fun k kept => ?_) intake posts reads wire
  cases empty : (s.frame k).holds.isEmpty with
  | false => exact (shaped k).reduced (reduced k) empty
  | true =>
    have before : (b.frame k).holds.isEmpty = true := by simpa [lostLastHold, empty] using kept
    rw [(reduced k).free (sound.free k (sound.held k before))]
    exact Frame.shaped_free

/-- A close in a hub whose holds are sound. -/
theorem closedAfter (h : HoldsSound s) (b : State) : HoldsSound (State.closeEvent b s) :=
  h.of_same (h.frames.closeEvent_frame b) (by simp) (by simp) (by simp) (State.closeEvent_station b s)
    (by simp)

/-- A frame with a post entry is SETTLED. -/
theorem settled_of_posted (h : HoldsSound s) {e : PostEntry} (posted : e ∈ (s.posts.get p).queue) :
    (s.frame e.handle).state = .settled := by
  have held : inSet (s.frame e.handle).holds.post p = true := (h.post p e.handle).mpr ⟨e, posted, rfl⟩
  have nonempty := Holds.nonempty_of_post held
  refine ((holdsSound_iff.mp h).2.1 e.handle).settledOf (fun free => ?_) (.inr fun none => ?_)
  · rw [h.frames.free _ free] at nonempty
    cases nonempty
  · rw [none] at held
    exact absurd held (by simp)

theorem settled_of_queued (h : HoldsSound s) {e : IntakeEntry} (queued : e ∈ s.intake.get p) :
    (s.frame e.handle).state = .settled := by
  have held : inSet (s.frame e.handle).holds.intake p = true := (h.intake p e.handle).mpr ⟨e, queued, rfl⟩
  have nonempty := Holds.nonempty_of_intake held
  refine ((holdsSound_iff.mp h).2.1 e.handle).settledOf (fun free => ?_) (.inl fun none => ?_)
  · rw [h.frames.free _ free] at nonempty
    cases nonempty
  · rw [none] at held
    exact absurd held (by simp)

/-! ### The taking of work -/

/-- Taking work changes the wire holds of SETTLED frames only. -/
theorem takeWork_unwired (h : HoldsSound s) {k : Handle} (unsettled : (s.frame k).state ≠ .settled) :
    (s.takeWork.frame k).holds.wire = (s.frame k).holds.wire := by
  rw [Bool.eq_iff_iff]
  refine ⟨fun on => (State.takeWork_wire on).resolve_right ?_, State.takeWork_wired⟩
  rintro ⟨p, posted⟩
  obtain ⟨e, member, rfl⟩ := mem_postHandles.mp posted
  exact unsettled (h.settled_of_posted member)

theorem takeWork_parts (h : HoldsSound s) : FramesShaped s.takeWork ∧ WireHeld s.takeWork := by
  obtain ⟨-, shaped, -, -, -, wire⟩ := holdsSound_iff.mp h
  exact ⟨fun k => (shaped k).rewired (by simp) (by simp) (by simp) (by simp) (by simp) (by simp) (by simp)
    h.takeWork_unwired, wire.takeWork fun p e posted => by rw [h.settled_of_posted posted]; simp⟩

theorem takeWork (h : HoldsSound s) : HoldsSound s.takeWork := by
  obtain ⟨sound, -, intake, posts, reads, -⟩ := holdsSound_iff.mp h
  exact holdsSound_iff.mpr ⟨sound.takeWork, h.takeWork_parts.1, intake.congr (by simp) (by simp),
    posts.congr (by simp) (s.takeWork_postHandles), reads.congr (by simp) (by simp), h.takeWork_parts.2⟩

end HoldsSound

end Sys2Proof.Machine
end

section
/-! Every step keeps each hold with what it stands for: the events that take holds off (R10 to R13, R22, R96, R106,
R121, R128). -/

namespace Sys2Proof.Machine

theorem losers_congr {s t : State} (h : t.intake = s.intake) (gone : Station → Nat) (k : Handle) :
    losers t gone k = losers s gone k := by unfold losers; rw [h]

theorem State.reportEnd_queue {s : State} {p : Station} {h : Handle} {o : PostOutcome} (q : Station) :
    ((s.reportEnd p h o).posts.get q).queue =
      if q = p ∧ inSet (s.frame h).holds.post p = true then (s.posts.get q).queue.tail
      else (s.posts.get q).queue := by
  unfold State.reportEnd State.complete
  split
  · next held =>
    split
    · next none =>
      split
      · next same => rw [same.1, none]; rfl
      · rfl
    · next e more front =>
      by_cases same : q = p
      · subst same; simp [held, front]
      · simp [Per.get_set, same]
  · next unheld => simp [unheld]

theorem State.cancelPost_queue (s : State) (p : Station) (e : PostEntry) (q : Station) :
    ((s.cancelPost p e).posts.get q).queue =
      if q = p then (s.posts.get q).queue.filter (fun x => x.handle ≠ e.handle)
      else (s.posts.get q).queue := by
  unfold State.cancelPost State.complete
  by_cases same : q = p
  · subst same; simp
  · simp [Per.get_set, same]

namespace HoldsSound

variable {b s t : State} {p : Station}

/-! ### Intake holds -/

/-- The close of an event that took only intake holds off frames, which stand for the entries that are left. -/
theorem intakeOnly (h : HoldsSound b) (reduced : b.Reduced s) (intake : IntakeHeld s)
    (others : ∀ k, (s.frame k).holds.fill = (b.frame k).holds.fill ∧
      (s.frame k).holds.read = (b.frame k).holds.read ∧ (s.frame k).holds.post = (b.frame k).holds.post ∧
      (s.frame k).holds.wire = (b.frame k).holds.wire)
    (posts : s.posts = b.posts) (ports : s.ports = b.ports) (mac : s.mac = b.mac) :
    HoldsSound (State.closeEvent b s) := by
  obtain ⟨-, -, -, post, reads, wire⟩ := holdsSound_iff.mp h
  refine h.closes reduced (fun k stores => ⟨mac ▸ stores, (others k).1⟩) intake
    (post.congr (fun k => (others k).2.2.1) fun q => ?_) (reads.congr (fun k => (others k).2.1) ports)
    (wire.same (fun k => (others k).2.2.2) (fun k => (others k).2.2.1) (by simp [mac]) (by simp [posts]))
  rw [State.postHandles, posts]
  rfl

theorem removeEntry (h : HoldsSound s) (k : Handle) :
    HoldsSound (State.closeEvent s (s.removeEntry p k)) := by
  have intake := (holdsSound_iff.mp h).2.2.1
  exact h.intakeOnly (s.removeEntry_reduced p k)
    (intake.removed p k rfl fun j => by rw [State.removeEntry_frame]) (by simp) (by simp) (by simp) (by simp)

theorem expireQueue (h : HoldsSound s) (n : Nat) :
    HoldsSound (State.closeEvent s ((s.reach n).expireQueue p)) := by
  have intake := (holdsSound_iff.mp h).2.2.1
  refine h.intakeOnly ((State.expireQueue_reduced _ p).of_frames (by simp))
    (intake.dropped (fun q => if q = p then (s.reach n).expiring p else 0) (fun q => ?_) fun k q => ?_)
    (by simp) (by simp) (by simp) (by simp)
  · simp only [State.expireQueue_intake, Per.get_set]
    split
    · next e => subst e; simp
    · simp
  · rw [State.expireQueue_frame]
    dsimp only
    rw [inSet_erase_if]
    by_cases e : q = p
    · subst e; simp
    · simp [e, Ne.symm e]

theorem departActive (h : HoldsSound s) (v : Session) :
    HoldsSound (State.closeEvent s ((s.setSession p v).departActive p)) := by
  have intake := (holdsSound_iff.mp h).2.2.1
  refine h.intakeOnly ((State.departActive_reduced _ p).of_frames (by simp))
    (intake.lost (departingExpires (s.setSession p v) p) (fun q => ?_) fun k => ?_)
    (by simp) (by simp) (by simp) (by simp)
  · rw [State.departActive_intake]; simp
  · rw [State.departActive_frame, losers_congr (s := s) (by simp)]; simp

theorem settleProposal (h : HoldsSound s) (o : Proposal) :
    HoldsSound (State.closeEvent s (s.settleProposal o)) := by
  have intake := (holdsSound_iff.mp h).2.2.1
  exact h.intakeOnly (s.settleProposal_reduced o)
    (intake.lost _ (s.settleProposal_intake o) fun k => by rw [State.settleProposal_frame])
    (by simp) (by simp) (by simp) (by simp)

theorem propose (h : HoldsSound s) (r : PartitionRecord) :
    HoldsSound (State.closeEvent s (s.propose p r)) := by
  have intake := (holdsSound_iff.mp h).2.2.1
  exact h.intakeOnly (s.propose_reduced p r)
    (intake.lost _ (s.propose_intake p r) fun k => by rw [State.propose_frame])
    (by simp) (by simp) (by simp) (by simp)

/-! ### Build and read holds -/

theorem dropBuildHold (h : HoldsSound s) (k : Handle) :
    HoldsSound (State.closeEvent s (s.dropBuildHold p k)) := by
  obtain ⟨-, -, intake, post, reads, wire⟩ := holdsSound_iff.mp h
  exact h.closes (s.dropBuildHold_reduced p k) (by simp) (intake.congr (by simp) (by simp))
    (post.congr (by simp) (by simp [State.postHandles])) (reads.congr (by simp) (by simp))
    (wire.same (by simp) (by simp) (by simp) (by simp))

/-- The end of a read: the stream of the port and its hold go together. -/
theorem dropReadHold (h : HoldsSound s) {v : Port} (none : v.reading = .none) :
    HoldsSound (State.closeEvent s ((s.dropReadHold p).setPort p v)) := by
  obtain ⟨-, -, intake, post, reads, wire⟩ := holdsSound_iff.mp h
  refine h.closes ((s.dropReadHold_reduced p).to_frames (by simp)) (by simp)
    (intake.congr (by simp) (by simp)) (post.congr (by simp) (by simp [State.postHandles]))
    ⟨reads.held.dropped (fun q => if q = p then 1 else 0) (fun q => ?_) fun k q => ?_, fun q untaken => ?_⟩
    (wire.same (by simp) (by simp) (by simp) (by simp))
  · simp only [State.readHandles, State.setPort_ports, State.dropReadHold_keeps, Per.get_set]
    split
    · rw [none]
      cases (s.ports.get q).reading <;> rfl
    · rfl
  · rw [State.setPort_frame, State.dropReadHold_frame]
    dsimp only
    rw [inSet_erase_if, State.readHandles]
    by_cases e : q = p
    · subst e
      cases (s.ports.get q).reading with
      | none => simp
      | some r => simp [eq_comm (a := k)]
    · simp [e, Ne.symm e]
  · simp only [State.setPort_ports, State.dropReadHold_keeps, Per.get_set] at untaken ⊢
    split
    · exact none
    · next e =>
      rw [if_neg e] at untaken
      exact reads.untaken q untaken

/-- The last requested byte: the stream goes on, and the entry may go. -/
theorem releaseRead (h : HoldsSound s) {v : Port} {r : ReadStream}
    (same : (s.ports.get p).sameReading v) :
    HoldsSound (State.closeEvent s ((s.setPort p v).releaseRead p r)) := by
  have ported := h.setPort same
  obtain ⟨-, -, intake, post, reads, wire⟩ := holdsSound_iff.mp ported
  unfold State.releaseRead
  split
  · refine h.closes ((State.removeEntry_reduced _ p r.handle).of_frames (by simp)) (by simp)
      (intake.removed p r.handle rfl fun j => by rw [State.removeEntry_frame])
      (post.congr (by simp) (by simp [State.postHandles])) (reads.congr (by simp) (by simp))
      (wire.same (by simp) (by simp) (by simp) (by simp))
  · exact ported.closedAfter s

/-! ### Post and wire holds -/

theorem cancelPost (h : HoldsSound s) {e : PostEntry} {k : Handle} (posted : s.postEntry p k = some e)
    (waits : e.started = false) : HoldsSound (State.closeEvent s (s.cancelPost p e)) := by
  obtain ⟨-, -, intake, post, reads, wire⟩ := holdsSound_iff.mp h
  have member : e ∈ (s.posts.get p).queue := List.mem_of_find?_eq_some posted
  have queue := s.cancelPost_queue p e
  have frame := s.cancelPost_frame p e
  refine h.closes (s.cancelPost_reduced p e) (by simp) (intake.congr (by simp) (by simp))
    (HeldBy.erased post p e.handle (fun q => ?_) fun j q => ?_) (reads.congr (by simp) (by simp))
    (wire.congr (by simp) (by simp) (fun q j w sends held => ?_) fun q x mem _ => ?_)
  · simp only [State.postHandles, queue]
    split <;> simp [List.filter_map, Function.comp_def]
  · rw [frame]
    dsimp only
    rw [inSet_erase_if]
    tauto
  · rw [frame] at held
    dsimp only at held
    refine ⟨(inSet_erase_if.mp held).1, fun x more front handle start => ?_⟩
    rw [queue, front]
    split
    · next same =>
      subst same
      have apart : x.handle ≠ e.handle := fun c => by
        have once := post.once q
        rw [State.postHandles, front, List.map_cons, List.nodup_cons] at once
        rw [front] at member
        rcases List.mem_cons.mp member with rfl | later
        · rw [waits] at start; cases start
        · exact once.1 (List.mem_map.mpr ⟨e, later, c.symm⟩)
      rw [List.filter_cons_of_pos (by simpa using apart)]
      exact ⟨_, rfl⟩
    · exact ⟨more, rfl⟩
  · rw [queue] at mem
    split at mem
    · exact (List.mem_filter.mp mem).1
    · exact mem

/-- What the end of a transmission, reported to its origin, makes of the post and wire holds. -/
theorem ended (h : HoldsSound b) {k : Handle} {e : Nat} (sends : b.mac.tx = .station p k e)
    (post : ∀ j, (s.frame j).holds.post =
      if j = k then eraseStation (b.frame j).holds.post p else (b.frame j).holds.post)
    (wire : ∀ j, (s.frame j).holds.wire = if j = k then false else (b.frame j).holds.wire)
    (queue : ∀ q, (s.posts.get q).queue =
      if q = p ∧ inSet (b.frame k).holds.post p = true then (b.posts.get q).queue.tail
      else (b.posts.get q).queue) (idle : ∀ q j w, s.mac.tx ≠ .station q j w) :
    PostsHeld s ∧ WireHeld s := by
  obtain ⟨-, -, -, posts, -, wired⟩ := holdsSound_iff.mp h
  have front : inSet (b.frame k).holds.post p = true → ∃ x more, (b.posts.get p).queue = x :: more ∧
      x.handle = k ∧ k ∉ more.map (·.handle) := fun held => by
    obtain ⟨x, more, front, handle, -⟩ := wired.sent p k e sends held
    have once := posts.once p
    rw [State.postHandles, front, List.map_cons, List.nodup_cons, handle] at once
    exact ⟨x, more, front, handle, once.1⟩
  constructor
  · refine HeldBy.dropped posts (fun q => if q = p ∧ inSet (b.frame k).holds.post p = true then 1 else 0)
      (fun q => ?_) fun j q => ?_
    · simp only [State.postHandles, queue]
      split <;> simp
    · rw [post, inSet_erase_if]
      by_cases same : q = p
      · subst same
        by_cases held : inSet (b.frame k).holds.post q = true
        · obtain ⟨x, more, front, handle, -⟩ := front held
          simp [held, State.postHandles, front, handle]
        · simp only [held, and_false, if_false, List.take_zero, List.not_mem_nil, not_false_eq_true,
            and_true, true_and, Bool.false_eq_true]
          constructor
          · exact And.left
          · exact fun on => ⟨on, fun c => held (c ▸ on)⟩
      · simp [same, Ne.symm same]
  · refine ⟨fun j => ?_, fun q j w on => absurd on (idle q j w), fun q x mem start => ?_⟩
    · rw [wire]
      constructor
      · intro on
        split at on
        · cases on
        · next other =>
          obtain ⟨q, w, sends'⟩ := (wired.wire j).mp on
          rw [sends] at sends'
          cases sends'
          exact absurd rfl other
      · rintro ⟨q, w, on⟩
        exact absurd on (idle q j w)
    · have before : x ∈ (b.posts.get q).queue := by
        rw [queue] at mem
        split at mem
        · exact List.mem_of_mem_tail mem
        · exact mem
      obtain ⟨w, sends'⟩ := wired.started q x before start
      rw [sends] at sends'
      cases sends'
      have held : inSet (b.frame x.handle).holds.post p = true :=
        (posts.stands p x.handle).mpr (mem_postHandles.mpr ⟨x, before, rfl⟩)
      obtain ⟨y, more, front, -, later⟩ := front held
      rw [queue, if_pos ⟨rfl, held⟩, front] at mem
      exact absurd (List.mem_map.mpr ⟨x, mem, rfl⟩) later

theorem sendEnded (h : HoldsSound s) {k : Handle} {e : Nat} (sends : s.mac.tx = .station p k e) (n : Nat) :
    HoldsSound (State.closeEvent s ((s.reach n).sendEnded p k)) := by
  obtain ⟨-, -, intake, -, reads, -⟩ := holdsSound_iff.mp h
  have queue : ∀ q, (((s.reach n).sendEnded p k).posts.get q).queue =
      if q = p ∧ inSet (s.frame k).holds.post p = true then (s.posts.get q).queue.tail
      else (s.posts.get q).queue := fun q => by
    have same : ((s.reach n).sendEnded p k).posts =
        (((s.reach n).countSent p k).reportEnd p k .sent).posts := by simp [State.sendEnded]
    rw [same, State.reportEnd_queue]
    simp
  obtain ⟨posts, wire⟩ := h.ended (s := (s.reach n).sendEnded p k) sends (by simp) (by simp) queue
    (by simp [State.sendEnded, State.endTransmission])
  exact h.closes ((State.sendEnded_reduced _ p k).of_frames (by simp)) (by simp)
    (intake.congr (by simp) (by simp)) posts (reads.congr (by simp) (by simp)) wire

end HoldsSound

end Sys2Proof.Machine
end

section
/-! Every step keeps each hold with what it stands for: the ends of sessions and of the link, and the events that give
holds (R8, R9, R78, R85, R89, R97, R113, R117, R136). -/

namespace Sys2Proof.Machine

theorem State.moveDown_queue (s : State) (q : Station) : (s.moveDown.posts.get q).queue =
    match s.mac.tx with
    | .station p h _ => if q = p ∧ inSet (s.frame h).holds.post p = true then (s.posts.get q).queue.tail
      else (s.posts.get q).queue
    | _ => (s.posts.get q).queue := by
  have same : s.moveDown.posts = s.takeDown.cutReception.loseTransmission.posts := by simp [State.moveDown]
  have tx : s.takeDown.cutReception.mac.tx = s.mac.tx := by simp
  rw [same, State.loseTransmission, tx]
  cases s.mac.tx with
  | idle | flow => simp
  | station p h e =>
    have ended : ∀ t : State, ((t.countLink .linkLost 1).endTransmission p h).posts = t.posts := by simp
    simp only [ended, State.reportEnd_queue]
    simp

namespace HoldsSound

variable {b s t x : State} {p : Station}

/-! ### Sessions and the link that end -/

/-- The teardown of a station whose port streams nothing any more. -/
theorem torn (h : HoldsSound b) (frames : ∀ k, x.frame k = b.frame k) (intake : x.intake = b.intake)
    (posts : x.posts = b.posts) (mac : x.mac = b.mac)
    (others : ∀ q, q ≠ p → x.ports.get q = b.ports.get q) (none : (x.ports.get p).reading = .none) :
    HoldsSound (State.closeEvent b (x.teardown p)) := by
  obtain ⟨-, -, intakes, post, reads, wire⟩ := holdsSound_iff.mp h
  have intakes : IntakeHeld x := intakes.congr (by simp [frames]) intake
  refine h.closes ((x.teardown_reduced p).of_frames frames) (by simp [mac, frames, Holds.withoutStation])
    (intakes.dropped (x.teardownDrops p) (x.teardown_intake p) fun k q => ?_)
    (HeldBy.dropped post (fun q => if q = p then (b.postHandles p).length else 0) (fun q => ?_) fun k q => ?_)
    ⟨reads.held.dropped (fun q => if q = p then 1 else 0) (fun q => ?_) fun k q => ?_, fun q untaken => ?_⟩
    (wire.congr (by simp [frames, Holds.withoutStation]) (by simp [mac]) (fun q k e sends held => ?_)
      fun q y mem _ => ?_)
  · rw [State.teardown_frame, State.teardownDrops]
    by_cases e : q = p
    · subst e
      have all : (∃ y ∈ x.intake.get q, y.handle = k) ↔ inSet (x.frame k).holds.intake q = true :=
        ((intakes.stands q k).trans mem_intakeHandles).symm
      simp [all]
    · simp [inSet_erase, e, Ne.symm e]
  · simp only [State.postHandles, State.teardown_posts, posts, Per.get_set]
    split
    · next e => subst e; simp
    · rfl
  · rw [State.teardown_frame, frames]
    by_cases e : q = p
    · subst e
      simp [Holds.withoutStation, ← post.stands]
    · simp [Holds.withoutStation, inSet_erase, e, Ne.symm e]
  · simp only [State.readHandles, State.teardown_keeps]
    split
    · next e =>
      subst e
      rw [none]
      cases (b.ports.get q).reading <;> rfl
    · next e => rw [others q e]; rfl
  · rw [State.teardown_frame, frames, State.readHandles]
    by_cases e : q = p
    · subst e
      have all := reads.held.stands q k
      rw [State.readHandles] at all
      cases reading : (b.ports.get q).reading <;> rw [reading] at all <;>
        simp_all [Holds.withoutStation]
    · simp [Holds.withoutStation, inSet_erase, e, Ne.symm e]
  · simp only [State.teardown_keeps] at untaken ⊢
    by_cases e : q = p
    · exact e ▸ none
    · rw [others q e] at untaken ⊢
      exact reads.untaken q untaken
  · rw [State.teardown_frame, frames] at held
    obtain ⟨before, other⟩ := by simpa [Holds.withoutStation, inSet_erase] using held
    exact ⟨before, fun y more front _ _ => ⟨more, by simp [posts, Per.get_set, Ne.symm other, front]⟩⟩
  · rw [State.teardown_posts, posts, Per.get_set] at mem
    split at mem
    · cases mem
    · exact mem

theorem moveDown (h : HoldsSound b) (frames : ∀ k, x.frame k = b.frame k) (intake : x.intake = b.intake)
    (posts : x.posts = b.posts) (tx : x.mac.tx = b.mac.tx) (ports : x.ports = b.ports) :
    HoldsSound (State.closeEvent b x.moveDown) := by
  obtain ⟨-, -, intakes, post, reads, wire⟩ := holdsSound_iff.mp h
  have ends : PostsHeld x.moveDown ∧ WireHeld x.moveDown := by
    cases sends : b.mac.tx with
    | station q j e =>
      have left : ∀ k, (x.moveDown.frame k).holds.post =
          (if k = j then eraseStation (b.frame k).holds.post q else (b.frame k).holds.post) ∧
          (x.moveDown.frame k).holds.wire = if k = j then false else (b.frame k).holds.wire := fun k => by
        rw [State.moveDown_frame, leftByDown, tx, sends, frames]
        by_cases same : k = j <;> simp [same, eq_comm (a := j)]
        all_goals split <;> simp
      refine h.ended sends (fun k => (left k).1) (fun k => (left k).2) (fun w => ?_) (by simp)
      rw [State.moveDown_queue, tx, sends, posts, ← frames]
    | idle | flow =>
      have left : ∀ k, (x.moveDown.frame k).holds.post = (b.frame k).holds.post ∧
          (x.moveDown.frame k).holds.wire = (b.frame k).holds.wire := fun k => by
        rw [State.moveDown_frame, leftByDown, tx, sends, frames]
        dsimp only
        split <;> simp
      have queue : ∀ w, (x.moveDown.posts.get w).queue = (b.posts.get w).queue := fun w => by
        rw [State.moveDown_queue, tx, sends, posts]
      exact ⟨post.congr (fun k => (left k).1) (fun w => by rw [State.postHandles, queue]; rfl),
        wire.same (fun k => (left k).2) (fun k => (left k).1) (by simp [sends]) queue⟩
  exact h.closes (x.moveDown_reduced.of_frames frames) (by simp)
    (intakes.congr (by simp [frames]) (by simp [intake])) ends.1
    (reads.congr (by simp [frames]) (by simp [ports])) ends.2

theorem dropForSpeed (h : HoldsSound b) (frames : ∀ k, x.frame k = b.frame k) (intake : x.intake = b.intake)
    (posts : x.posts = b.posts) (tx : x.mac.tx = b.mac.tx) (receiver : x.mac.receiver = b.mac.receiver)
    (ports : x.ports = b.ports) :
    HoldsSound (State.closeEvent b x.dropForSpeed) := by
  unfold State.dropForSpeed
  split
  · exact (h.of_same frames intake (by simp [posts]) ports (by simp [tx]) (by simp [receiver])).closedAfter b
  · exact h.moveDown (by simpa using frames) (by simp [intake]) (by simp [posts]) (by simp [tx]) (by simp [ports])

/-! ### Holds that are given -/

/-- A FREE record that opens with holds that stand for no entry of a list. -/
theorem opened (h : HoldsSound s) {k : Handle} {f : Frame} (free : (s.frame k).state = .free)
    (frames : ∀ j, t.frame j = if j = k then f else s.frame j) (sound : FramesSound t) (shaped : f.Shaped)
    (unused : f.holds.intake = 0 ∧ f.holds.read = 0 ∧ f.holds.post = 0 ∧ f.holds.wire = false)
    (intake : t.intake = s.intake) (posts : t.posts = s.posts) (ports : t.ports = s.ports)
    (tx : t.mac.tx = s.mac.tx) : HoldsSound t := by
  obtain ⟨before, shapes, intakes, post, reads, wire⟩ := holdsSound_iff.mp h
  have blank : s.frame k = Frame.free := before.free k free
  have same : ∀ j, (t.frame j).holds.intake = (s.frame j).holds.intake ∧
      (t.frame j).holds.read = (s.frame j).holds.read ∧ (t.frame j).holds.post = (s.frame j).holds.post ∧
      (t.frame j).holds.wire = (s.frame j).holds.wire := fun j => by
    rw [frames]
    split
    · next e => rw [e, blank]; exact unused
    · exact ⟨rfl, rfl, rfl, rfl⟩
  refine holdsSound_iff.mpr ⟨sound, fun j => ?_, intakes.congr (fun j => (same j).1) intake,
    post.congr (fun j => (same j).2.2.1) (fun q => by rw [State.postHandles, posts]; rfl),
    reads.congr (fun j => (same j).2.1) ports,
    wire.same (fun j => (same j).2.2.2) (fun j => (same j).2.2.1) (by simp [tx]) (by simp [posts])⟩
  rw [frames]
  split
  · exact shaped
  · exact shapes j

theorem openBuild (h : HoldsSound s) {k : Handle} {n : Nat}
    (granted : s.grantBuild p (granulesFor n) = some k) : HoldsSound (s.openBuild p k n) := by
  have free : (s.frame k).state = .free := by
    have found := granted
    unfold State.grantBuild at found
    split at found
    · cases found
    · exact (lowestFree_eq_some_iff.mp found).1
  exact h.opened free (f := Frame.build p n (s.store.freeList.take (granulesFor n)))
    (by simp [State.openBuild]) (h.frames.openBuild granted) (Frame.shaped_build p n _)
    ⟨rfl, rfl, rfl, rfl⟩ (by simp) (by simp) (by simp) (by simp)

theorem requestSlot (h : HoldsSound s) : HoldsSound s.requestSlot := by
  cases found : lowestFree s.store.frames with
  | none =>
    have skipped : s.requestSlot = (s.countLink .noSlot 1).setReceiver .skipping := by
      rw [State.requestSlot, found]
    rw [skipped]
    exact h.of_same (by simp) (by simp) (by simp) (by simp) (by simp) (by simp [State.setReceiver])
  | some k =>
    exact h.opened (lowestFree_eq_some_iff.mp found).1 (State.requestSlot_granted found).1
      h.frames.requestSlot Frame.shaped_filling ⟨rfl, rfl, rfl, rfl⟩ (by simp) (by simp) (by simp) (by simp)

theorem storeArrival (h : HoldsSound s) {k : Handle} {c : Byte} (stores : s.mac.receiver = .storing k) :
    HoldsSound ((s.checkArrival c).storeArrival k c) := by
  obtain ⟨-, shaped, intake, post, reads, wire⟩ := holdsSound_iff.mp h
  have same : ∀ j, (((s.checkArrival c).storeArrival k c).frame j).state = (s.frame j).state ∧
      (((s.checkArrival c).storeArrival k c).frame j).origin = (s.frame j).origin ∧
      (((s.checkArrival c).storeArrival k c).frame j).holds = (s.frame j).holds := fun j => by
    obtain ⟨others, own, -⟩ := ((s.checkArrival c).storeArrival_arrival k c).body
    by_cases e : j = k
    · subst e; simpa using ⟨own.1, own.2.1, own.2.2.2⟩
    · rw [others j e]; simp
  have holds := fun j => (same j).2.2
  exact holdsSound_iff.mpr ⟨h.frames.storeArrival stores,
    fun j => (shaped j).same (same j).1 (same j).2.1 (holds j),
    intake.congr (fun j => by rw [holds]) (by simp), post.congr (fun j => by rw [holds]) (by simp [State.postHandles]),
    reads.congr (fun j => by rw [holds]) (by simp),
    wire.same (fun j => by rw [holds]) (fun j => by rw [holds]) (by simp) (by simp)⟩

theorem rxread (h : HoldsSound s) {r : ReadStream} {v : Port}
    (queued : ∃ e ∈ s.intake.get p, e.handle = r.handle) (untaken : (s.ports.get p).phase.untaken)
    (reading : v.reading = some r) (taken : ¬ v.phase.untaken) :
    HoldsSound ((s.addReadHold p r.handle).setPort p v) := by
  obtain ⟨sound, shaped, intake, post, reads, wire⟩ := holdsSound_iff.mp h
  obtain ⟨e, queued, same⟩ := queued
  have settled : (s.frame r.handle).state = .settled := same ▸ h.settled_of_queued queued
  have idle : s.readHandles p = [] := by simp [State.readHandles, reads.untaken p untaken]
  refine holdsSound_iff.mpr ⟨(sound.addReadHold (p := p) r.handle).of_frames (by simp) (by simp), fun k => ?_,
    intake.congr (by simp) (by simp), post.congr (by simp) (by simp [State.postHandles]),
    ⟨reads.held.added r.handle (· = p) (fun q same => by rw [show q = p from same, idle]; simp) (fun q => ?_) fun k q => ?_,
      fun q untaken => ?_⟩, wire.same (by simp) (by simp) (by simp) (by simp)⟩
  · rw [State.setPort_frame, State.addReadHold_frame]
    by_cases e : k = r.handle
    · obtain ⟨unfilled, unbuilt⟩ := (shaped k).settled (e ▸ settled)
      exact Frame.Shaped.ofSettled (e ▸ settled) unfilled unbuilt
    · exact (shaped k).same rfl rfl (by simp [e])
  · simp only [State.readHandles, State.setPort_ports, Per.get_set]
    split
    · next e =>
      rw [State.readHandles] at idle
      simp [e, reading, idle]
    · simp
  · rw [State.setPort_frame, State.addReadHold_frame]
    dsimp only
    by_cases e : k = r.handle
    · subst e; simp [settled, inSet_insert, eq_comm (a := p)]
    · simp [e]
  · simp only [State.setPort_ports, Per.get_set] at untaken ⊢
    split
    · next e => exact absurd untaken (by rw [if_pos e]; exact taken)
    · next e =>
      rw [if_neg e] at untaken
      exact reads.untaken q (by simpa using untaken)

end HoldsSound

end Sys2Proof.Machine
end

section
/-! Every step keeps each hold with what it stands for: the frames that are admitted and posted (R87 to R95, R117). -/

namespace Sys2Proof.Machine

/-! ### Admission to the queues -/

/-- A link frame at the end of its reception, counted and classified, before its admission (R89). -/
def State.arrived (s : State) (h : Handle) : State :=
  ((s.modifyFrame h fun f => { f with state := .settled, truncated := false, tooLong := false }).countGood
    (s.frame h).length).classify h .link

theorem State.settleFrame_eq (s : State) (h : Handle) : s.settleFrame h =
    ((((s.arrived h).admission h).1.countUndelivered ((s.arrived h).admission h).2).dropFillHold h).setReceiver
      .idle := rfl

theorem State.arrived_body (s : State) (h k : Handle) :
    ((s.arrived h).frame k).state = (if k = h then .settled else (s.frame k).state) ∧
      ((s.arrived h).frame k).holds = (s.frame k).holds := by
  simp only [State.arrived, State.classify_frame, State.countGood_frame, State.modifyFrame_frame]
  split
  · next e => subst e; exact ⟨rfl, rfl⟩
  · exact ⟨rfl, rfl⟩

theorem State.settleFrame_intake_hold (s : State) (h k : Handle) : ((s.settleFrame h).frame k).holds.intake =
    if k = h then (s.frame k).holds.intake ||| (s.arrived h).admittedOf h else (s.frame k).holds.intake := by
  rw [State.settleFrame_eq]
  simp only [State.setReceiver_frame, State.dropFillHold_frame, State.countUndelivered_frame,
    State.admission_frame, (s.arrived_body h k).1, (s.arrived_body h k).2]
  by_cases e : k = h <;> simp [e]

@[simp] theorem State.arrived_intake (s : State) (h : Handle) : (s.arrived h).intake = s.intake := by
  simp [State.arrived]

/-- A post that is classified, before its admission (R117). -/
def State.classified (s : State) (p : Station) (h : Handle) : State :=
  (s.settlePost p h).classify h (.station p)

/-- The stations that take a post: none when it goes to the wire only. -/
def State.delivered (s : State) (p : Station) (h : Handle) (v : PostFlags) : StationSet :=
  if v = .wireOnly then 0 else (s.classified p h).admittedOf h

/-- A post that was delivered, before it goes to the wire or is contained (R117). -/
def State.served (s : State) (p : Station) (h : Handle) (v : PostFlags) : State :=
  ((s.settlePost p h).deliverPost p h v).1

theorem State.served_intake_hold (s : State) (p : Station) (h : Handle) (v : PostFlags) (k : Handle) :
    ((s.served p h v).frame k).holds.intake = if k = h then (s.frame k).holds.intake ||| s.delivered p h v
      else (s.frame k).holds.intake := by
  unfold State.served State.deliverPost State.delivered
  split
  · simp
  · rw [State.admission_frame, State.classify_frame, State.settlePost_frame]
    by_cases e : k = h
    · simp [e, State.classified]
    · simp [e]

theorem State.routed_intake_hold (s : State) (p : Station) (h : Handle) (v : PostFlags) (k : Handle) :
    ((s.routed p h v).frame k).holds.intake = if k = h then (s.frame k).holds.intake ||| s.delivered p h v
      else (s.frame k).holds.intake := by
  rw [← State.served_intake_hold]
  unfold State.routed State.served
  split <;> simp

theorem State.intakeHandles_congr {s t : State} (h : t.intake = s.intake) (q : Station) :
    t.intakeHandles q = s.intakeHandles q := by rw [State.intakeHandles, h]; rfl

theorem State.admission_handles (s : State) (h : Handle) (q : Station) :
    (s.admission h).1.intakeHandles q = if inSet (s.admittedOf h) q = true then s.intakeHandles q ++ [h]
      else s.intakeHandles q := by
  rw [State.intakeHandles, State.admission_intake]
  split <;> simp [State.intakeHandles]

theorem State.served_handles (s : State) (p : Station) (h : Handle) (v : PostFlags) (q : Station) :
    (s.served p h v).intakeHandles q = if inSet (s.delivered p h v) q = true then s.intakeHandles q ++ [h]
      else s.intakeHandles q := by
  unfold State.served State.deliverPost State.delivered
  split
  · rw [State.intakeHandles_congr (s := s) (by simp)]
    simp
  · refine ((s.classified p h).admission_handles h q).trans ?_
    rw [State.intakeHandles_congr (s := s) (by simp [State.classified])]

theorem State.routed_handles (s : State) (p : Station) (h : Handle) (v : PostFlags) (q : Station) :
    (s.routed p h v).intakeHandles q = if inSet (s.delivered p h v) q = true then s.intakeHandles q ++ [h]
      else s.intakeHandles q := by
  rw [← State.served_handles]
  refine State.intakeHandles_congr ?_ q
  unfold State.routed State.served
  split <;> simp

/-- A frame without intake holds is admitted at some stations. -/
theorem IntakeHeld.admitted {s t : State} (h : IntakeHeld s) {k : Handle} {a : StationSet}
    (unqueued : (s.frame k).holds.intake = 0)
    (holds : ∀ j, (t.frame j).holds.intake = if j = k then (s.frame j).holds.intake ||| a
      else (s.frame j).holds.intake)
    (handles : ∀ q, t.intakeHandles q = if inSet a q = true then s.intakeHandles q ++ [k]
      else s.intakeHandles q) : IntakeHeld t := by
  refine HeldBy.added h k (fun q => inSet a q = true) (fun q _ queued => ?_) handles fun j q => ?_
  · have held := (h.stands q k).mpr queued
    rw [unqueued] at held
    exact absurd held (by simp)
  · rw [holds]
    by_cases e : j = k <;> simp [e]

theorem FramesSound.empty_iff {s : State} (h : FramesSound s) {k : Handle} :
    (s.frame k).holds.isEmpty = true ↔ (s.frame k).state = .free :=
  ⟨h.held k, fun free => by rw [h.free k free]; rfl⟩

namespace HoldsSound

variable {b s t x : State} {p : Station}

/-- The close of an event after which the same frames are empty, whichever hub it began in. -/
theorem rebase (h : HoldsSound (State.closeEvent x s))
    (same : ∀ k, (x.frame k).holds.isEmpty = (b.frame k).holds.isEmpty) :
    HoldsSound (State.closeEvent b s) := by
  have lost : ∀ k, lostLastHold (b.frame k) (s.frame k) = lostLastHold (x.frame k) (s.frame k) := fun k => by
    rw [lostLastHold, lostLastHold, same]
  exact h.of_same (fun k => by simp only [State.closeEvent_frame, lost k]) (by simp) (by simp) (by simp)
    (fun p k e => (State.closeEvent_station b s p k e).trans (State.closeEvent_station x s p k e).symm)
    (by simp)

/-! ### The end of a link frame -/

theorem discardFrame (h : HoldsSound s) (k : Handle) (c : LinkCounter) :
    HoldsSound (State.closeEvent s (s.discardFrame k c)) := by
  obtain ⟨-, -, intake, post, reads, wire⟩ := holdsSound_iff.mp h
  exact h.closes (s.discardFrame_reduced k c) (by simp) (intake.congr (by simp) (by simp))
    (post.congr (by simp) (by simp [State.postHandles])) (reads.congr (by simp) (by simp))
    (wire.same (by simp) (by simp) (by simp) (by simp))

theorem loadPause (h : HoldsSound s) (q : Half) : HoldsSound (s.loadPause q) := by
  unfold State.loadPause
  split
  · exact h
  · split
    · split
      · exact takeWork (h.of_same (by simp) (by simp) (by simp) (by simp) (by simp) (by simp))
      · exact h
    · exact h.of_same (by simp) (by simp) (by simp) (by simp) (by simp) (by simp)

theorem settleFrame (h : HoldsSound s) {k : Handle} (stores : s.mac.receiver = .storing k)
    (sound : FramesSound (State.closeEvent s (s.settleFrame k))) :
    HoldsSound (State.closeEvent s (s.settleFrame k)) := by
  obtain ⟨-, shaped, intake, post, reads, wire⟩ := holdsSound_iff.mp h
  have filling := (shaped k).filling (h.frames.storing k stores).1
  have queued := s.settleFrame_intake_hold k
  refine closed sound (fun j _ => ?_)
    (intake.admitted (by rw [filling]; rfl) queued fun q => ?_)
    (post.congr (by simp) fun q => ?_) (reads.congr (by simp) (by simp))
    (wire.same (by simp) (by simp) (by simp) fun q => ?_)
  · by_cases e : j = k
    · subst e
      exact Frame.Shaped.ofSettled (by simp) (by simp) (by rw [(s.settleFrame_body j j).2.2.2.2.2.1, filling]; rfl)
    · exact (shaped j).rewired (by simp [e]) (by simp) (by simp [e]) (by simp) (by rw [queued, if_neg e])
        (by simp) (by simp) (by simp)
  · rw [State.intakeHandles_congr (s := ((s.arrived k).admission k).1) (by simp [State.settleFrame_eq]),
      State.admission_handles, State.intakeHandles_congr (s.arrived_intake k)]
  · simp [State.postHandles]
  · simp

theorem endFrame (h : HoldsSound s) {k : Handle} {e : EndOutcome} (stores : s.mac.receiver = .storing k) :
    HoldsSound (State.closeEvent s (s.endFrame k e)) := by
  have sound := h.frames.endFrame (e := e) stores
  revert sound
  unfold State.endFrame
  dsimp only
  split
  · exact fun _ => h.discardFrame k _
  · exact fun _ => h.discardFrame k _
  · split
    · exact fun _ => h.discardFrame k _
    · split
      · exact fun _ => h.discardFrame k _
      · split
        · exact fun _ => h.discardFrame k _
        · split
          · exact fun _ => ((h.loadPause _).discardFrame k _).rebase fun j => by
              rw [Bool.eq_iff_iff, (h.loadPause _).frames.empty_iff, h.frames.empty_iff,
                (s.loadPause_body _ j).1]
          · exact h.settleFrame stores

end HoldsSound

end Sys2Proof.Machine
end

section
/-! Every step keeps each hold with what it stands for (R8 to R13, R95, R127). -/

namespace Sys2Proof.Machine

theorem State.served_body (s : State) (p : Station) (h : Handle) (v : PostFlags) (k : Handle) :
    ((s.served p h v).frame k).state = (if k = h then .settled else (s.frame k).state) ∧
      ((s.served p h v).frame k).holds.post = (s.frame k).holds.post ∧
      ((s.served p h v).frame k).holds.wire = (s.frame k).holds.wire := by
  simp [State.served]

/-- A post queue written back unchanged stays as it is for every station. -/
theorem State.setPosts_queue {s : State} {p : Station} {v : PostPath} (same : v.queue = (s.posts.get p).queue)
    (q : Station) : ((s.setPosts p v).posts.get q).queue = (s.posts.get q).queue := by
  simp only [State.setPosts, Per.get_set]
  split
  · next e => subst e; exact same
  · rfl

theorem State.startSession_queue (s : State) (p q : Station) :
    ((s.startSession p).posts.get q).queue = (s.posts.get q).queue := by
  exact (State.setPosts_queue (by simp) q).trans (by simp)

theorem State.served_queue (s : State) (p : Station) (h : Handle) (v : PostFlags) (q : Station) :
    ((s.served p h v).posts.get q).queue = (s.posts.get q).queue ∧
      (s.served p h v).mac.tx = s.mac.tx := by
  have delivered : (s.served p h v).posts = (s.settlePost p h).posts ∧
      (s.served p h v).mac = s.mac := by
    unfold State.served State.deliverPost
    split <;> simp
  rw [delivered.1, delivered.2]
  refine ⟨?_, rfl⟩
  unfold State.settlePost
  rw [State.setPosts_queue (by simp)]
  simp

theorem State.routed_eq (s : State) (p : Station) (h : Handle) (v : PostFlags) : s.routed p h v =
    if (s.served p h v).goesToWire h v
    then ((s.served p h v).queued p h ((s.settlePost p h).deliverPost p h v).2).takeWork
    else (s.served p h v).containPost p h ((s.settlePost p h).deliverPost p h v).2 := rfl

theorem State.queued_queue (s : State) (p : Station) (h : Handle) (n : Nat) (q : Station) :
    ((s.queued p h n).posts.get q).queue = if q = p then (s.posts.get q).queue ++
      [{ handle := h, number := (s.posts.get p).number, deliveries := n,
         wireLength := wireLengthOf (s.frame h).length, started := false }] else (s.posts.get q).queue := by
  simp only [State.queued, State.setPosts, Per.get_set]
  split
  · next e => subst e; rfl
  · simp

theorem State.containPost_queue (s : State) (p : Station) (h : Handle) (n : Nat) (q : Station) :
    ((s.containPost p h n).posts.get q).queue = (s.posts.get q).queue := by
  have same : (s.containPost p h n).posts = (s.setPosts p { s.posts.get p with
      completions := (s.posts.get p).completions ++ [⟨h, (s.posts.get p).number, .contained, n, 0⟩] }).posts := by
    simp [State.containPost, State.complete]
  rw [same]
  exact State.setPosts_queue (by simp) q

namespace HoldsSound

variable {b s t x : State} {p : Station}

/-- A SETTLED frame without post and wire holds joins the post queue of a station. -/
theorem queued (posts : PostsHeld s) (wire : WireHeld s) {k : Handle} (n : Nat)
    (settled : (s.frame k).state = .settled) (unposted : (s.frame k).holds.post = 0)
    (unwired : (s.frame k).holds.wire = false) :
    PostsHeld (s.queued p k n) ∧ WireHeld (s.queued p k n) := by
  have hold : ∀ j, ((s.queued p k n).frame j).holds.post =
      if j = k then insertStation (s.frame j).holds.post p else (s.frame j).holds.post := fun j => by
    rw [State.queued_frame]
    by_cases e : j = k <;> simp [e, settled]
  constructor
  · refine HeldBy.added posts k (· = p) (fun q _ queued => ?_) (fun q => ?_) fun j q => ?_
    · have held := (posts.stands q k).mpr queued
      rw [unposted] at held
      exact absurd held (by simp)
    · simp only [State.postHandles, State.queued_queue]
      split <;> simp
    · rw [hold]
      by_cases e : j = k
      · simp [e, inSet_insert, eq_comm (a := p)]
      · simp [e]
  · refine wire.congr (by simp) (by simp [State.queued]) (fun q j w sends held => ?_) fun q y mem start => ?_
    · have other : j ≠ k := by
        rintro rfl
        rw [(wire.wire j).mpr ⟨q, w, sends⟩] at unwired
        cases unwired
      rw [hold, if_neg other] at held
      refine ⟨held, fun y more front _ _ => ?_⟩
      rw [State.queued_queue, front]
      split
      · exact ⟨_, rfl⟩
      · exact ⟨more, rfl⟩
    · rw [State.queued_queue] at mem
      split at mem
      · rcases List.mem_append.mp mem with mem | mem
        · exact mem
        · rw [List.mem_singleton.mp mem] at start
          cases start
      · exact mem

/-- What the routing of a post makes of the post and wire holds. -/
theorem routed (h : HoldsSound s) {k : Handle} (v : PostFlags) (unposted : (s.frame k).holds.post = 0)
    (unwired : (s.frame k).holds.wire = false) :
    PostsHeld (s.routed p k v) ∧ WireHeld (s.routed p k v) ∧
      ∀ j, j ≠ k → ((s.routed p k v).frame j).holds.post = (s.frame j).holds.post ∧
        ((s.frame j).state ≠ .settled → ((s.routed p k v).frame j).holds.wire = (s.frame j).holds.wire) := by
  obtain ⟨-, -, -, posts, -, wire⟩ := holdsSound_iff.mp h
  have body := s.served_body p k v
  have queue := s.served_queue p k v
  have posts : PostsHeld (s.served p k v) := posts.congr (fun j => (body j).2.1) fun q => by
    rw [State.postHandles, (queue q).1]; rfl
  have wire : WireHeld (s.served p k v) := wire.same (fun j => (body j).2.2) (fun j => (body j).2.1)
    (by simp [(queue p).2]) fun q => (queue q).1
  rw [State.routed_eq]
  generalize ((s.settlePost p k).deliverPost p k v).2 = n
  split
  · obtain ⟨posts', wire'⟩ := queued (p := p) posts wire n (k := k)
      (by simp [(body k).1]) ((body k).2.1.trans unposted) ((body k).2.2.trans unwired)
    have settled : ∀ q, ∀ e ∈ (((s.served p k v).queued p k n).posts.get q).queue,
        e.handle = k ∨ (s.frame e.handle).state = .settled := fun q e member => by
      rw [State.queued_queue] at member
      split at member
      · rcases List.mem_append.mp member with member | member
        · exact .inr (h.settled_of_posted ((queue q).1 ▸ member))
        · exact .inl (by rw [List.mem_singleton.mp member])
      · exact .inr (h.settled_of_posted ((queue q).1 ▸ member))
    refine ⟨posts'.congr (fun j => State.takeWork_body _ j |>.2.2.2.2.2.2.2.2.2.2.2) (State.takeWork_postHandles _),
      wire'.takeWork fun q e member => ?_, fun j other => ⟨?_, fun unsettled => ?_⟩⟩
    · rw [State.queued_frame]
      dsimp only
      rw [(body _).1]
      split
      · simp
      · next other => simp [(settled q e member).resolve_left other]
    · simp [other, (body j).2.1]
    · have before : (((s.served p k v).queued p k n).frame j).holds.wire = (s.frame j).holds.wire := by
        rw [State.queued_frame]
        exact (body j).2.2
      rw [← before, Bool.eq_iff_iff]
      refine ⟨fun on => (State.takeWork_wire on).resolve_right ?_, State.takeWork_wired⟩
      rintro ⟨q, posted⟩
      obtain ⟨e, member, rfl⟩ := mem_postHandles.mp posted
      exact unsettled ((settled q e member).resolve_left other)
  · have queue' := (s.served p k v).containPost_queue p k n
    exact ⟨posts.congr (by simp) fun q => by rw [State.postHandles, queue']; rfl,
      wire.same (by simp) (by simp) (by simp) queue', fun j _ => by simp [(body j).2]⟩

/-- A post keeps each hold with what it stands for. -/
theorem posting (h : HoldsSound s) {k : Handle} {v : PostFlags} (built : s.inBuildSet p k = true) :
    HoldsSound (s.post p k v).1 := by
  obtain ⟨building, own⟩ := State.inBuildSet_iff.mp built
  have sound := h.frames.post (v := v) built
  obtain ⟨-, shaped, intake, posts, reads, wire⟩ := holdsSound_iff.mp h
  obtain ⟨q, -, holds⟩ := (shaped k).building building
  have same : q = p := by simpa [holds] using own
  subst same
  obtain ⟨posts', wire', others⟩ := h.routed (p := q) v (k := k) (by rw [holds]; rfl) (by rw [holds]; rfl)
  have queued := s.routed_intake_hold q k v
  rw [State.post_eq] at sound ⊢
  refine closed sound (fun j _ => ?_)
    (intake.admitted (by rw [holds]; rfl) (fun j => by simpa using queued j) fun w => ?_)
    (posts'.congr (by simp) fun w => by simp [State.postHandles]) (reads.congr (by simp) (by simp))
    (wire'.same (by simp) (by simp) (by simp) (by simp))
  · rw [State.countPost_frame]
    by_cases e : j = k
    · subst e
      refine Frame.Shaped.ofSettled (by simp) (by simp [holds, Holds.none]) (set_ext fun w => ?_)
      rw [Bool.eq_iff_iff]
      simp [holds, inSet_erase]
    · refine (shaped j).rewired (by simp [e]) (by simp) (by simp) (by simp [e]) ?_ (by simp) ?_ fun unsettled => ?_
      · simp [queued, e]
      · simp [others j e]
      · simpa using (others j e).2 unsettled
  · rw [State.intakeHandles_congr (s := s.routed q k v) (by simp)]
    exact s.routed_handles q k v w

theorem effect {u : State} {r : Option ReadStream} {v : Port} (h : HoldsSound s) (e : Effect s p u r)
    (untaken : (s.ports.get p).phase.untaken) (reading : v.reading = r) (taken : ¬ v.phase.untaken) :
    HoldsSound (u.setPort p v) := by
  have port : ∀ {u}, HoldsSound u → u.ports = s.ports → r = none → HoldsSound (u.setPort p v) :=
    fun sound ports none => sound.setPort (.inr ⟨reading.trans none, by rw [ports]; exact untaken⟩)
  cases e with
  | rxread active r queued => exact h.rxread queued untaken reading taken
  | nothing => exact port h rfl rfl
  | leave =>
    exact port (h.torn (fun _ => rfl) rfl rfl rfl (fun _ _ => rfl) ((holdsSound_iff.mp h).2.2.2.2.1.untaken p untaken))
      (by simp) rfl
  | suspend => exact port (h.departActive _) (by simp) rfl
  | rxrelease active k => exact port (h.removeEntry k) (by simp) rfl
  | cancelBuild active k => exact port (h.dropBuildHold k) (by simp) rfl
  | cancelPost active e k posted waits => exact port (h.cancelPost posted waits) (by simp) rfl
  | propose active r => exact port (h.propose r) (by simp) rfl
  | endorse active o => exact port (h.settleProposal _) (by simp) rfl
  | txopen active k n fits room granted => exact port ((h.openBuild granted).closedAfter s) (by simp) rfl
  | txpost active k v built => exact port (h.posting built) (by simp [State.post_eq]) rfl
  | txdone active c rest oldest =>
    exact port (h.of_same (by simp) (by simp) (State.setPosts_queue rfl) (by simp) (by simp) (by simp)) (by simp)
      rfl
  | join =>
    exact port (h.of_same (by simp) (by simp) (s.startSession_queue p) (by simp) (by simp) (by simp)) (by simp) rfl
  | resume | setaccept | claim | draft | publish | disable | retire | txwrite | object =>
    exact port (h.of_same (by simp) (by simp) (by simp) (by simp) (by simp) (by simp)) (by simp) rfl
  | events | setmask | snapshot =>
    exact port (h.of_same (by simp) (by simp) (by simp) (by simp) (by simp) (by simp)) (by simp) rfl

theorem moveUp (h : HoldsSound s) : HoldsSound s.moveUp := by
  unfold State.moveUp
  refine takeWork (h.of_same (by simp) (by simp) (by simp) (by simp) (fun q k e => ?_) (by simp))
  rw [(State.respond_answered _ _).station]
  simp

theorem compareInputs (h : HoldsSound s) : HoldsSound s.compareInputs := by
  unfold State.compareInputs
  split
  · exact h.moveUp
  · exact h

theorem followInputs (h : HoldsSound b) (frames : ∀ k, x.frame k = b.frame k) (intake : x.intake = b.intake)
    (posts : x.posts = b.posts) (mac : x.mac = b.mac) (ports : x.ports = b.ports) :
    HoldsSound (State.closeEvent b x.followInputs) := by
  have same : HoldsSound x := h.of_same frames intake (by simp [posts]) ports (by simp [mac]) (by simp [mac])
  unfold State.followInputs
  split
  · exact same.moveUp.closedAfter b
  · exact h.moveDown frames intake posts (by rw [mac]) ports
  · exact same.closedAfter b

end HoldsSound

theorem Port.sameReading_sentLast {v : Port} {r : ReadStream} {c : Byte} (streaming : v.streaming = some r) :
    v.sameReading (v.sentLast r c) := by
  refine .inl ⟨?_, fun untaken => absurd untaken (by simp [Port.sentLast, Phase.untaken])⟩
  unfold Port.streaming at streaming
  split at streaming
  · rw [(Option.filter_eq_some_iff.mp streaming).1]
    rfl
  · rw [(Option.filter_eq_some_iff.mp streaming).1]
    rfl
  · rw [(Option.filter_eq_some_iff.mp streaming).1]
    rfl
  · cases streaming

/-- After device reset no frame carries a hold, and there is nothing that one could stand for. -/
theorem holdsSound_reset (s : State) : HoldsSound { State.reset with
    clock := s.clock, pins := s.pins, pending := s.pending, ports := Per.of fun p => (s.ports.get p).afterReset } := by
  have frame : ∀ k, State.reset.frame k = Frame.free := fun k => Table.get_const _ k
  have blank : ∀ k, (State.reset.frame k).holds = Holds.none := fun k => congrArg Frame.holds (frame k)
  have unqueued : ∀ q, State.reset.intake.get q = [] := fun q => Per.get_const _ q
  have unposted : ∀ q, (State.reset.posts.get q).queue = [] := fun q =>
    congrArg PostPath.queue (Per.get_const _ q)
  have silent : ∀ q, ((Per.of fun p => (s.ports.get p).afterReset).get q).reading = none := fun q => by
    rw [Per.get_of, Port.afterReset]
    split <;> rfl
  refine holdsSound_iff.mpr ⟨⟨fun k _ => frame k, fun k _ => congrArg Frame.state (frame k), nofun⟩,
    fun k => (frame k).symm ▸ Frame.shaped_free,
    HeldBy.of_nothing (fun k => congrArg Holds.intake (blank k)) fun q => congrArg _ (unqueued q),
    HeldBy.of_nothing (fun k => congrArg Holds.post (blank k)) fun q => congrArg _ (unposted q),
    ⟨HeldBy.of_nothing (fun k => congrArg Holds.read (blank k)) fun q => ?_, fun q _ => silent q⟩,
    ⟨fun k => ?_, nofun, fun q x mem => ?_⟩⟩
  · exact congrArg (fun r : Option ReadStream => (r.map (·.handle)).toList) (silent q)
  · refine ⟨fun on => absurd on (Bool.eq_false_iff.mp (congrArg Holds.wire (blank k))), ?_⟩
    rintro ⟨p, e, sends⟩
    cases sends
  · exact absurd ((unposted q) ▸ mem) List.not_mem_nil

theorem holdsSound_eventsKeep : EventsKeep HoldsSound where
  quiet _ _ _ h := h.of_same (by simp) (by simp) (by simp) (by simp) (by simp) (by simp)
  port _ _ _ h same := h.setPort same
  effect _ _ _ _ _ h e untaken reading taken := h.effect e untaken reading taken
  rise _ _ _ h _ none := h.dropReadHold none
  lastByte _ p v r h streaming e := h.releaseRead (e ▸ Port.sameReading_sentLast streaming)
  presentFall p s h _ := by
    have low : HoldsSound (s.setPresent p false) :=
      h.of_same (by simp) (by simp) (by simp) (by simp) (by simp) (by simp)
    refine low.torn (by simp) (by simp) (by simp) (by simp) (fun q other => by simp [Per.get_set, other]) ?_
    have untaken := (holdsSound_iff.mp low).2.2.2.2.1.untaken p
    simp only [State.setPort_ports, Per.get_set_self, Port.abandon]
    split
    · next idle => exact untaken (Phase.untaken_iff.mpr (.inl idle))
    · rfl
  present _ _ _ h _ := h.of_same (by simp) (by simp) (by simp) (by simp) (by simp) (by simp)
  deviceReset s t ran _ := by
    cases ran
    exact holdsSound_reset s
  phyInputChange i v s h := h.followInputs (by simp) (by simp) (by simp) (by simp) (by simp)
  speedChange _ s h := h.dropForSpeed (by simp) rfl rfl rfl rfl rfl
  linkInputCompare _ h :=
    HoldsSound.compareInputs (h.of_same (by simp) (by simp) (by simp) (by simp) (by simp) (by simp))
  frameStart _ _ h _ _ := h.requestSlot
  byteArrival _ s _ h stores := (h.storeArrival stores).closedAfter s
  frameEnd _ _ _ h stores := h.endFrame stores
  skipped _ h _ := h.of_same (by simp) (by simp) (by simp) (by simp) (by simp) (by simp [State.setReceiver])
  transmissionComplete _ _ _ _ h sends := HoldsSound.takeWork (h.sendEnded sends _)
  flowControlComplete _ _ _ h sends := HoldsSound.takeWork
    (h.of_same (by simp) (by simp) (by simp) (by simp) (by simp [sends]) (by simp))
  pauseTimerExpiry _ _ h _ := HoldsSound.takeWork
    (h.of_same (by simp) (by simp) (by simp) (by simp) (by simp) (by simp))
  refreshTimerExpiry _ _ _ _ h _ _ := HoldsSound.takeWork
    (h.of_same (by simp) (by simp) (by simp) (by simp) (by simp) (by simp))
  holdLimitExpiry p s t h _ := h.expireQueue t
  proposalExpiry _ _ h _ := h.of_same (by simp) (by simp) (by simp) (by simp) (by simp) (by simp)

/-- Settles O55: each step keeps each hold of a frame with the entry, stream, reception or transmission that it stands
for. -/
theorem stepKeepsHoldsSound : Obligations.StepKeepsHoldsSound := EventsKeep.step holdsSound_eventsKeep

end Sys2Proof.Machine
end

section
/-! Every step keeps the transmit use of a station at most 8 and its intake queue at most 32 entries long (R95,
R112). -/

namespace Sys2Proof.Machine

/-! ### What counts towards the transmit use -/

/-- The handles of a station's builds. -/
def State.builds (s : State) (p : Station) : Finset Handle := Finset.univ.filter fun k => s.inBuildSet p k = true

theorem State.mem_builds {s : State} {p : Station} {k : Handle} :
    k ∈ s.builds p ↔ s.inBuildSet p k = true := by simp [State.builds]

theorem State.buildCount_eq (s : State) (p : Station) : s.buildCount p = (s.builds p).card := by
  rw [State.buildCount, Table.rows_eq_map, List.filter_map, List.length_map]
  simp only [State.builds, Finset.card_def, Finset.filter_val]
  exact congrArg List.length (List.filter_congr fun k _ => (Bool.decide_coe _).symm)

/-- The posts and completions of a station. -/
def State.waiting (s : State) (p : Station) : Nat :=
  (s.posts.get p).queue.length + (s.posts.get p).completions.length

theorem State.transmitUse_eq (s : State) (p : Station) :
    s.transmitUse p = (s.builds p).card + s.waiting p := by
  rw [State.transmitUse, State.buildCount_eq, State.waiting, Nat.add_assoc]

theorem State.waiting_congr {s t : State} (h : t.posts = s.posts) (p : Station) : t.waiting p = s.waiting p := by
  rw [State.waiting, h]; rfl

theorem State.setPosts_waiting (s : State) (p : Station) (v : PostPath) (q : Station) :
    (s.setPosts p v).waiting q = if q = p then v.queue.length + v.completions.length else s.waiting q := by
  simp only [State.waiting, State.setPosts, Per.get_set]
  split <;> rfl

theorem State.complete_waiting (s : State) (p : Station) (c : Completion) (q : Station) :
    (s.complete p c).waiting q = s.waiting q + if q = p then 1 else 0 := by
  unfold State.complete
  rw [State.waiting_congr (State.raiseFlag_keeps _ _ _).2.2.2.2.2.2.2.1, State.setPosts_waiting]
  split
  · next e => subst e; simp [State.waiting]; omega
  · rfl

theorem State.takeWork_waiting (s : State) (q : Station) : s.takeWork.waiting q = s.waiting q := by
  have work := s.takeWork_work
  generalize s.takeWork = t at work ⊢
  cases work with
  | busy => rfl
  | flow => exact State.waiting_congr (by simp) q
  | nothing => rfl
  | station speed p v e more up idle pending unpaused examined front =>
    rw [State.waiting, State.startStation_posts (s := { s with scheduler := v }) front speed, Per.get_set]
    split
    · next same => subst same; simp [State.waiting, front]
    · rfl

theorem State.reportEnd_waiting (s : State) (p : Station) (h : Handle) (o : PostOutcome) (q : Station) :
    (s.reportEnd p h o).waiting q = s.waiting q := by
  unfold State.reportEnd
  split
  · split
    · rfl
    · next e more front =>
      rw [State.complete_waiting, State.setPosts_waiting]
      split
      · next same => subst same; simp [State.waiting, front]; omega
      · rfl
  · rfl

theorem State.cancelPost_waiting {s : State} {p : Station} {e : PostEntry} (posted : e ∈ (s.posts.get p).queue)
    (q : Station) : (s.cancelPost p e).waiting q ≤ s.waiting q := by
  have fewer : ((s.posts.get p).queue.filter fun x => x.handle ≠ e.handle).length < (s.posts.get p).queue.length :=
    List.length_filter_lt_length_iff_exists.mpr ⟨e, posted, by simp⟩
  unfold State.cancelPost
  rw [State.waiting_congr (State.countStation_keeps _ _ _ _).2.2.2.2.2.2.2.1, State.complete_waiting,
    State.waiting_congr (State.dropPostHold_keeps _ _ _).2.2.2.2.2.2.2.2.1, State.setPosts_waiting]
  split
  · next same =>
    subst same
    simp only [State.waiting]
    omega
  · exact Nat.le_refl _

theorem State.sendEnded_waiting (s : State) (p : Station) (h : Handle) (q : Station) :
    (s.sendEnded p h).waiting q = s.waiting q := by
  have same : (s.sendEnded p h).posts = ((s.countSent p h).reportEnd p h .sent).posts := by
    simp [State.sendEnded]
  rw [State.waiting_congr same, State.reportEnd_waiting]
  exact State.waiting_congr (by simp) q

theorem State.moveDown_waiting (s : State) (q : Station) : s.moveDown.waiting q = s.waiting q := by
  have same : s.moveDown.posts = s.takeDown.cutReception.loseTransmission.posts := by simp [State.moveDown]
  rw [State.waiting_congr same, State.loseTransmission]
  split
  · exact State.waiting_congr (by simp) q
  · next p h e sends =>
    have ended : (((s.takeDown.cutReception.reportEnd p h .linkLost).countLink .linkLost 1).endTransmission
        p h).posts = (s.takeDown.cutReception.reportEnd p h .linkLost).posts := by simp
    rw [State.waiting_congr ended, State.reportEnd_waiting]
    exact State.waiting_congr (by simp) q
  · exact State.waiting_congr (by simp) q

theorem State.moveUp_waiting (s : State) (q : Station) : s.moveUp.waiting q = s.waiting q := by
  unfold State.moveUp
  rw [State.takeWork_waiting]
  refine (State.waiting_congr ?_ q)
  simp

theorem State.teardown_waiting (s : State) (p q : Station) : (s.teardown p).waiting q ≤ s.waiting q := by
  rw [State.waiting, State.teardown_posts, Per.get_set]
  split
  · exact Nat.zero_le _
  · exact Nat.le_refl _

/-! ### Intake queues that get no longer -/

theorem State.teardown_length (s : State) (p q : Station) :
    ((s.teardown p).intake.get q).length ≤ (s.intake.get q).length := by
  rw [State.teardown_intake, List.length_drop]
  exact Nat.sub_le _ _

theorem State.removeEntry_length (s : State) (p : Station) (h : Handle) (q : Station) :
    ((s.removeEntry p h).intake.get q).length ≤ (s.intake.get q).length := by
  have queue : (s.removeEntry p h).intake = s.intake.set p (dropIntake (s.intake.get p) h) := rfl
  rw [queue, Per.get_set]
  split
  · next e => subst e; exact List.length_filter_le _ _
  · exact Nat.le_refl _

/-! ### Hubs in which no station uses more -/

/-- No station uses more for transmission, nor has intake entries beyond the capacity that it had not. -/
structure NoMore (s t : State) : Prop where
  transmit : ∀ p, t.transmitUse p ≤ s.transmitUse p
  intake : ∀ p, (t.intake.get p).length ≤ 32 ∨ (t.intake.get p).length ≤ (s.intake.get p).length

namespace NoMore

variable {s t u : State}

theorem trans (h : NoMore s t) (k : NoMore t u) : NoMore s u where
  transmit p := Nat.le_trans (k.transmit p) (h.transmit p)
  intake p := by
    have := h.intake p
    have := k.intake p
    omega

theorem bounded (h : NoMore s t) (bounded : QueuesBounded s) : QueuesBounded t := fun p => by
  obtain ⟨transmit, queue⟩ := bounded p
  have := h.transmit p
  have := h.intake p
  omega

/-- Neither builds nor posts and completions grew. -/
theorem of_parts (built : ∀ p k, t.inBuildSet p k = true → s.inBuildSet p k = true)
    (waiting : ∀ p, t.waiting p ≤ s.waiting p)
    (intake : ∀ p, (t.intake.get p).length ≤ 32 ∨ (t.intake.get p).length ≤ (s.intake.get p).length) :
    NoMore s t where
  transmit p := by
    have fewer : t.builds p ⊆ s.builds p := fun k k_built =>
      State.mem_builds.mpr (built p k (State.mem_builds.mp k_built))
    have := Finset.card_le_card fewer
    have := waiting p
    rw [State.transmitUse_eq, State.transmitUse_eq]
    omega
  intake := intake

theorem of_reduced (reduced : s.Reduced t) (waiting : ∀ p, t.waiting p ≤ s.waiting p)
    (intake : ∀ p, (t.intake.get p).length ≤ (s.intake.get p).length) : NoMore s t :=
  of_parts (fun p k built => by
    obtain ⟨building, build⟩ := State.inBuildSet_iff.mp built
    exact State.inBuildSet_iff.mpr ⟨(reduced k).state ▸ building, (reduced k).2.build p build⟩) waiting
    fun p => .inr (intake p)

theorem of_bodies (bodies : ∀ k, (t.frame k).state = (s.frame k).state ∧
      (t.frame k).holds.build = (s.frame k).holds.build) (waiting : ∀ p, t.waiting p ≤ s.waiting p)
    (intake : t.intake = s.intake) : NoMore s t :=
  of_parts (fun p k built => by
    obtain ⟨state, build⟩ := bodies k
    rwa [State.inBuildSet_iff, ← state, ← build, ← State.inBuildSet_iff]) waiting
    fun p => .inr (by rw [intake])

/-- The same with the posts as they were. -/
theorem of_same (bodies : ∀ k, (t.frame k).state = (s.frame k).state ∧
      (t.frame k).holds.build = (s.frame k).holds.build) (posts : t.posts = s.posts)
    (intake : t.intake = s.intake) : NoMore s t :=
  of_bodies bodies (fun p => Nat.le_of_eq (State.waiting_congr posts p)) intake

theorem closeEvent (b s : State) : NoMore s (State.closeEvent b s) :=
  of_parts (fun p k built => by
    obtain ⟨building, build⟩ := State.inBuildSet_iff.mp built
    rw [State.closeEvent_frame] at building build
    split at building
    · cases building
    · next kept =>
      rw [if_neg kept] at build
      exact State.inBuildSet_iff.mpr ⟨building, build⟩)
    (fun p => Nat.le_of_eq (State.waiting_congr (by simp) p)) fun p => .inr (by simp)

theorem closes (h : NoMore s t) (b : State) : NoMore s (State.closeEvent b t) := h.trans (closeEvent b t)

/-! ### Admission (R95) -/

/-- A station that admits a frame has room for the entry. -/
theorem room_of_admitted {h : Handle} {q : Station} (admitted : inSet (s.admittedOf h) q = true) :
    (s.intake.get q).length < 32 := by
  cases classified : (s.frame h).result with
  | none =>
    rw [State.admittedOf, classified] at admitted
    exact absurd admitted (by simp)
  | some r =>
    rw [State.admittedOf_eq classified, State.admitters_iff] at admitted
    have decided := admitted.2
    unfold State.decide at decided
    split at decided
    · cases decided
    · split at decided
      · cases decided
      · next room => exact Nat.lt_of_not_le room

theorem admission_intake (h : Handle) (q : Station) : ((s.admission h).1.intake.get q).length ≤ 32 ∨
    ((s.admission h).1.intake.get q).length ≤ (s.intake.get q).length := by
  rw [State.admission_intake]
  split
  · next admitted =>
    have := room_of_admitted admitted
    rw [List.length_append, List.length_singleton]
    omega
  · exact .inr (Nat.le_refl _)

theorem settleFrame (h : Handle) : NoMore s (s.settleFrame h) := by
  refine of_parts (fun p k built => ?_) (fun p => Nat.le_of_eq (State.waiting_congr (by simp) p)) fun p => ?_
  · obtain ⟨building, build⟩ := State.inBuildSet_iff.mp built
    obtain ⟨state, -, -, -, -, same, -⟩ := s.settleFrame_body h k
    rw [state] at building
    split at building
    · cases building
    · exact State.inBuildSet_iff.mpr ⟨building, same ▸ build⟩
  · have queue := admission_intake (s := s.arrived h) h p
    have same : (s.settleFrame h).intake = ((s.arrived h).admission h).1.intake := by simp [State.settleFrame_eq]
    rw [State.arrived_intake] at queue
    rw [same]
    exact queue

theorem discardFrame (h : Handle) (c : LinkCounter) : NoMore s (s.discardFrame h c) :=
  of_same (by simp) (by simp) (by simp)

theorem takeWork (s : State) : NoMore s s.takeWork :=
  of_bodies (by simp) (fun p => Nat.le_of_eq (s.takeWork_waiting p)) (by simp)

theorem works (h : NoMore s t) : NoMore s t.takeWork := h.trans (takeWork t)

theorem loadPause (q : Half) : NoMore s (s.loadPause q) := by
  unfold State.loadPause
  split
  · exact of_same (fun _ => ⟨rfl, rfl⟩) rfl rfl
  · split
    · split
      · exact works (of_same (by simp) (by simp) (by simp))
      · exact of_same (fun _ => ⟨rfl, rfl⟩) rfl rfl
    · exact of_same (by simp) (by simp) (by simp)

theorem endFrame (h : Handle) (e : EndOutcome) : NoMore s (s.endFrame h e) := by
  unfold State.endFrame
  dsimp only
  split
  · exact discardFrame h _
  · exact discardFrame h _
  · split
    · exact discardFrame h _
    · split
      · exact discardFrame h _
      · split
        · exact discardFrame h _
        · split
          · exact (loadPause _).trans (discardFrame h _)
          · exact settleFrame h

/-! ### A post -/

theorem served_waiting (p : Station) (h : Handle) (v : PostFlags) (q : Station) :
    (s.served p h v).waiting q = s.waiting q := by
  have delivered : (s.served p h v).posts = (s.settlePost p h).posts := by
    unfold State.served State.deliverPost
    split <;> simp
  rw [State.waiting_congr delivered, State.settlePost, State.setPosts_waiting]
  split
  · next e => subst e; simp [State.waiting]
  · exact State.waiting_congr (by simp) q

theorem routed_waiting (p : Station) (h : Handle) (v : PostFlags) (q : Station) :
    (s.routed p h v).waiting q = s.waiting q + if q = p then 1 else 0 := by
  rw [← served_waiting (s := s) p h v, State.routed_eq]
  split
  · rw [State.takeWork_waiting, State.queued, State.setPosts_waiting]
    split
    · next e => subst e; simp [State.waiting]; omega
    · exact State.waiting_congr (by simp) q
  · unfold State.containPost
    rw [State.waiting_congr (State.countStation_keeps _ _ _ _).2.2.2.2.2.2.2.1, State.complete_waiting]

theorem routed_intake (p : Station) (h : Handle) (v : PostFlags) (q : Station) :
    ((s.routed p h v).intake.get q).length ≤ 32 ∨
      ((s.routed p h v).intake.get q).length ≤ (s.intake.get q).length := by
  have same : (s.routed p h v).intake = (s.served p h v).intake := by
    rw [State.routed_eq]
    split
    · simp [State.queued]
    · simp
  rw [same]
  unfold State.served State.deliverPost
  split
  · exact .inr (by simp)
  · have queue := admission_intake (s := s.classified p h) h q
    rw [show (s.classified p h).intake = s.intake by simp [State.classified]] at queue
    exact queue

/-- A build that becomes a post entry or a completion leaves the transmit use as it was. -/
theorem post {p : Station} {h : Handle} (v : PostFlags) (built : s.inBuildSet p h = true) :
    NoMore s (s.post p h v).1 := by
  rw [State.post_eq]
  refine closes ⟨fun q => ?_, fun q => ?_⟩ s
  · generalize same : ((s.routed p h v).dropBuildHold p h).countPost p _ = t
    have builds : t.builds q ⊆ (s.builds q).erase h := fun k member => by
      obtain ⟨building, build⟩ := State.inBuildSet_iff.mp (State.mem_builds.mp member)
      simp only [← same, State.countPost_frame, State.dropBuildHold_frame, State.routed_body] at building build
      split at building
      · cases building
      · next other =>
        rw [if_neg other] at build
        exact Finset.mem_erase.mpr ⟨other, State.mem_builds.mpr (State.inBuildSet_iff.mpr ⟨building, build⟩)⟩
    have waiting : t.waiting q = s.waiting q + if q = p then 1 else 0 := by
      rw [← routed_waiting p h v, ← same]
      exact State.waiting_congr (by simp) q
    have fewer := Finset.card_le_card builds
    rw [State.transmitUse_eq, State.transmitUse_eq, waiting]
    split
    · next e =>
      subst e
      have member := State.mem_builds.mpr built
      have := Finset.card_pos.mpr ⟨h, member⟩
      rw [Finset.card_erase_of_mem member] at fewer
      omega
    · have := Finset.card_erase_le (s := s.builds q) (a := h)
      omega
  · simpa using routed_intake p h v q

theorem moveDown (s : State) : NoMore s s.moveDown :=
  of_reduced s.moveDown_reduced (fun p => Nat.le_of_eq (s.moveDown_waiting p)) (by simp)

theorem moveUp (s : State) : NoMore s s.moveUp :=
  of_bodies (by simp) (fun p => Nat.le_of_eq (s.moveUp_waiting p)) (by simp)

end NoMore

namespace QueuesBounded

variable {s t : State} {p : Station}

theorem of_same (h : QueuesBounded s) (bodies : ∀ k, (t.frame k).state = (s.frame k).state ∧
      (t.frame k).holds.build = (s.frame k).holds.build) (posts : t.posts = s.posts)
    (intake : t.intake = s.intake) : QueuesBounded t := (NoMore.of_same bodies posts intake).bounded h

theorem openBuild {k : Handle} {n : Nat} (h : QueuesBounded s) (room : s.transmitUse p < 8) :
    QueuesBounded (s.openBuild p k n) := fun q => by
  obtain ⟨transmit, queue⟩ := h q
  refine ⟨?_, by simpa using queue⟩
  have builds : (s.openBuild p k n).builds q ⊆ if q = p then insert k (s.builds q) else s.builds q := fun j member => by
    obtain ⟨building, build⟩ := State.inBuildSet_iff.mp (State.mem_builds.mp member)
    have frame : (s.openBuild p k n).frame j = if j = k
        then Frame.build p n (s.store.freeList.take (granulesFor n)) else s.frame j := by simp [State.openBuild]
    rw [frame] at building build
    split at build
    · next e =>
      have own : q = p := by simpa [Frame.build, eq_comm] using build
      rw [if_pos own, e]
      exact Finset.mem_insert_self k _
    · next other =>
      rw [if_neg other] at building
      have before := State.mem_builds.mpr (State.inBuildSet_iff.mpr ⟨building, build⟩)
      split
      · exact Finset.mem_insert_of_mem before
      · exact before
  have more := Finset.card_le_card builds
  have waiting : (s.openBuild p k n).waiting q = s.waiting q := State.waiting_congr (by simp) q
  rw [State.transmitUse_eq] at transmit room ⊢
  split at more
  · next e =>
    subst e
    have := Finset.card_insert_le k (s.builds q)
    omega
  · omega

theorem effect {u : State} {r : Option ReadStream} (h : QueuesBounded s) (e : Effect s p u r) :
    QueuesBounded u := by
  cases e with
  | nothing => exact h
  | leave =>
    exact ((NoMore.of_reduced (s.teardown_reduced p) (s.teardown_waiting p) (s.teardown_length p)).closes s).bounded h
  | suspend =>
    refine ((NoMore.of_reduced ((State.departActive_reduced _ p).of_frames (by simp))
      (fun q => Nat.le_of_eq (State.waiting_congr (by simp) q)) fun q => ?_).closes s).bounded h
    simp [State.departActive_intake]
  | rxrelease active k =>
    refine ((NoMore.of_reduced (s.removeEntry_reduced p k)
      (fun q => Nat.le_of_eq (State.waiting_congr (by simp) q)) (s.removeEntry_length p k)).closes s).bounded h
  | cancelBuild active k =>
    exact ((NoMore.of_reduced (s.dropBuildHold_reduced p k)
      (fun q => Nat.le_of_eq (State.waiting_congr (by simp) q)) (by simp)).closes s).bounded h
  | cancelPost active e k posted =>
    exact ((NoMore.of_reduced (s.cancelPost_reduced p e)
      (State.cancelPost_waiting (List.mem_of_find?_eq_some posted)) (by simp)).closes s).bounded h
  | propose active r =>
    refine ((NoMore.of_reduced (s.propose_reduced p r)
      (fun q => Nat.le_of_eq (State.waiting_congr (by simp) q)) fun q => ?_).closes s).bounded h
    simp [State.propose_intake]
  | endorse active o =>
    refine ((NoMore.of_reduced (s.settleProposal_reduced _)
      (fun q => Nat.le_of_eq (State.waiting_congr (by simp) q)) fun q => ?_).closes s).bounded h
    simp [State.settleProposal_intake]
  | txopen active k n fits room => exact (NoMore.closeEvent s _).bounded (h.openBuild room)
  | txpost active k v built => exact (NoMore.post v built).bounded h
  | txdone active c rest oldest =>
    refine (NoMore.of_bodies (by simp) (fun q => ?_) (by simp)).bounded h
    rw [State.setPosts_waiting]
    split
    · next e => subst e; simp [State.waiting, oldest]
    · exact Nat.le_refl _
  | join =>
    refine (NoMore.of_bodies (by simp) (fun q => ?_) (by simp)).bounded h
    unfold State.startSession
    rw [State.setPosts_waiting]
    split
    · next e => subst e; simp [State.waiting]
    · exact Nat.le_of_eq (State.waiting_congr (by simp) q)
  | rxread | resume | setaccept | claim | draft | publish | disable | retire | txwrite | object =>
    exact h.of_same (by simp) (by simp) (by simp)
  | events | setmask | snapshot => exact h.of_same (by simp) (by simp) (by simp)

theorem compareInputs (h : QueuesBounded s) : QueuesBounded s.compareInputs := by
  unfold State.compareInputs
  split
  · exact (NoMore.moveUp s).bounded h
  · exact h

theorem followInputs (h : QueuesBounded s) : QueuesBounded s.followInputs := by
  unfold State.followInputs
  split
  · exact (NoMore.moveUp s).bounded h
  · exact (NoMore.moveDown s).bounded h
  · exact h

theorem dropForSpeed (h : QueuesBounded s) : QueuesBounded s.dropForSpeed := by
  unfold State.dropForSpeed
  split
  · exact h
  · exact (NoMore.moveDown _).bounded (h.of_same (by simp) (by simp) (by simp))

theorem closed (h : QueuesBounded s) (b : State) : QueuesBounded (State.closeEvent b s) :=
  (NoMore.closeEvent b s).bounded h


theorem requestSlot (h : QueuesBounded s) : QueuesBounded s.requestSlot := by
  refine (NoMore.of_parts (fun p k built => ?_)
    (fun q => Nat.le_of_eq (State.waiting_congr (by simp) q)) fun q => .inr (by simp)).bounded h
  cases found : lowestFree s.store.frames with
  | none =>
    have skipped : s.requestSlot = (s.countLink .noSlot 1).setReceiver .skipping := by
      rw [State.requestSlot, found]
    rw [State.inBuildSet_iff, skipped] at built
    rw [State.inBuildSet_iff]
    simpa using built
  | some j =>
    rw [State.inBuildSet_iff, (State.requestSlot_granted found).1] at built
    split at built
    · cases built.1
    · exact State.inBuildSet_iff.mpr built

end QueuesBounded

theorem queuesBounded_eventsKeep : EventsKeep QueuesBounded where
  quiet _ _ _ h := h
  port _ _ _ h _ := h
  effect _ _ _ _ _ h e _ _ _ := (QueuesBounded.effect h e).of_same (by simp) (by simp) (by simp)
  rise s p v h _ _ := ((NoMore.of_same (by simp) (by simp) (by simp)).closes s).bounded h
  lastByte s p v r h _ _ := by
    refine ((NoMore.of_reduced ((State.releaseRead_reduced _ p r).of_frames (by simp))
      (fun q => Nat.le_of_eq (State.waiting_congr (by simp) q)) fun q => ?_).closes s).bounded h
    unfold State.releaseRead
    split
    · exact (State.removeEntry_length _ p r.handle q).trans (by simp)
    · simp
  presentFall p s h _ := by
    have low : QueuesBounded (s.setPresent p false) := h
    refine ((NoMore.of_reduced (State.endSession_reduced _ p) (fun q => ?_) fun q => ?_).closes _).bounded low
    · exact (State.teardown_waiting _ p q).trans (Nat.le_of_eq (State.waiting_congr (by simp) q))
    · exact (State.teardown_length _ p q).trans (by simp)
  present p s v h _ := h
  deviceReset _ _ ran _ := by
    cases ran
    intro p
    have none : ∀ k, State.reset.inBuildSet p k = false := fun k => by
      rw [State.inBuildSet, show State.reset.frame k = Frame.free from Table.get_const _ k]
      rfl
    have builds : State.reset.builds p = ∅ := Finset.filter_eq_empty_iff.mpr fun k _ => by simp [none]
    refine ⟨?_, ?_⟩
    · show State.reset.transmitUse p ≤ 8
      rw [State.transmitUse_eq, builds]
      cases p <;> decide
    · show (State.reset.intake.get p).length ≤ 32
      cases p <;> decide
  phyInputChange _ _ s h := (QueuesBounded.followInputs (h.of_same (by simp) (by simp) (by simp))).closed s
  speedChange _ s h := (QueuesBounded.dropForSpeed (h.of_same (by simp) (by simp) (by simp))).closed s
  linkInputCompare _ h := QueuesBounded.compareInputs (h.of_same (by simp) (by simp) (by simp))
  frameStart _ _ h _ _ := h.requestSlot
  byteArrival b s k h _ := by
    refine (QueuesBounded.of_same h (fun j => ?_) (by simp) (by simp)).closed s
    obtain ⟨others, ⟨state, -, -, holds⟩, -⟩ := ((s.checkArrival b).storeArrival_arrival k b).body
    by_cases e : j = k
    · subst e; simp [state, holds]
    · simp [others j e]
  frameEnd e s k h _ := ((NoMore.endFrame k e).closes s).bounded h
  skipped _ h _ := h
  transmissionComplete s p k t h _ := by
    have ended : NoMore s ((s.reach t).sendEnded p k) :=
      NoMore.of_reduced ((State.sendEnded_reduced _ p k).of_frames (by simp))
        (fun q => Nat.le_of_eq ((State.sendEnded_waiting _ p k q).trans (State.waiting_congr (by simp) q))) (by simp)
    exact (ended.closes s).works.bounded h
  flowControlComplete _ _ _ h _ := (NoMore.works (NoMore.of_same (by simp) (by simp) (by simp))).bounded h
  pauseTimerExpiry _ _ h _ := (NoMore.works (NoMore.of_same (by simp) (by simp) (by simp))).bounded h
  refreshTimerExpiry _ _ _ _ h _ _ := (NoMore.works (NoMore.of_same (by simp) (by simp) (by simp))).bounded h
  holdLimitExpiry p s t h _ := by
    refine ((NoMore.of_reduced ((State.expireQueue_reduced _ p).of_frames (by simp))
      (fun q => Nat.le_of_eq (State.waiting_congr (by simp) q)) fun q => ?_).closes s).bounded h
    rw [State.expireQueue_intake, Per.get_set]
    split
    · next e => subst e; simp
    · simp
  proposalExpiry _ _ h _ := h.of_same (by simp) (by simp) (by simp)

/-- Settles O57: a build, post or completion more needs an allowance that is not used up, and an intake entry more a queue
that is not full. -/
theorem stepKeepsQueuesBounded : Obligations.StepKeepsQueuesBounded := EventsKeep.step queuesBounded_eventsKeep

end Sys2Proof.Machine
end

section
/-! Every step keeps the Link MAC at rest while the link is DOWN, and the flow-control generator in line with the free list
and the thresholds (R136, R144 to R148). -/

namespace Sys2Proof.Machine

/-! ### The Link MAC between the end of a transmission and the taking of work -/

/-- The Link MAC is at rest while the link is DOWN, and the refresh timer runs exactly while the generator is
ASSERTED. -/
structure Mac.Rested (m : Mac) : Prop where
  down : m.link = .down → m.tx = .idle ∧ m.pauseUntil = none ∧ m.gen = .clear ∧ m.receiver = .idle
  refresh : m.gen.asserted = m.gen.refreshAt.isSome

/-- A request waits only while the transmitter is busy. -/
def Mac.Served (m : Mac) : Prop := m.gen.pending.isSome = true → m.tx ≠ .idle

theorem linkSound_iff {s : State} : LinkSound s ↔ s.mac.Rested ∧ s.mac.Served :=
  ⟨fun h => ⟨⟨h.down, h.refresh⟩, h.pending⟩, fun h => ⟨h.1.down, h.1.refresh, h.2⟩⟩

theorem Mac.requested_rested {m : Mac} {speed : Speed} {now : Nat} {q : Half} {a : Bool} {r : Option Nat}
    (up : m.link = .up speed) (timer : a = r.isSome) : (m.requested speed now q a r).Rested := by
  unfold Mac.requested
  split <;> exact ⟨fun down => absurd (up.symm.trans down) nofun, timer⟩

theorem Mac.requested_served {m : Mac} {speed : Speed} {now : Nat} {q : Half} {a : Bool} {r : Option Nat} :
    (m.requested speed now q a r).Served := by
  unfold Mac.requested Mac.Served
  split
  · simp
  · next busy => exact fun _ => busy

/-- What the generator's answer keeps of a Link MAC: the Link MAC as it was, or one with a request made on an UP link. -/
theorem LengthAnswered.keeps {m n : Mac} {now length : Nat} {r : PartitionRecord}
    (h : LengthAnswered m n now length r) {P : Mac → Prop} (same : P m)
    (made : ∀ speed q a t, m.link = .up speed → a = Option.isSome t → P (m.requested speed now q a t)) : P n := by
  cases hl : m.link with
  | down => rwa [h.down hl]
  | up speed =>
    cases ha : m.gen.asserted
    · rcases Nat.lt_or_ge length r.pauseOn.toNat with hn | hn
      · rw [h.low speed hl ha hn]; exact made _ _ _ _ hl rfl
      · rwa [h.enough ha hn]
    · rcases Nat.lt_or_ge length r.pauseOff.toNat with hn | hn
      · rwa [h.short ha hn]
      · rw [h.resumed speed hl ha hn]; exact made _ _ _ _ hl rfl

/-- The close of an event leaves the Link MAC to the generator's answer. -/
theorem State.closeEvent_mac {P : Mac → Prop} {b s : State} (same : P s.mac)
    (made : ∀ speed now q a t, s.mac.link = .up speed → a = Option.isSome t →
      P (s.mac.requested speed now q a t)) : P (State.closeEvent b s).mac := by
  unfold State.closeEvent
  dsimp only
  split
  · exact ((State.releaseLost b s).respond_answered _).keeps same fun speed q a t => made speed _ q a t
  · exact same

theorem Mac.Rested.closed {b s : State} (h : s.mac.Rested) : (State.closeEvent b s).mac.Rested :=
  State.closeEvent_mac h fun _ _ _ _ _ up timer => Mac.requested_rested up timer

namespace LinkSound

variable {b s t : State} {p : Station}

theorem closed (h : LinkSound s) (b : State) : LinkSound (State.closeEvent b s) :=
  linkSound_iff.mpr ⟨(linkSound_iff.mp h).1.closed,
    State.closeEvent_mac (linkSound_iff.mp h).2 fun _ _ _ _ _ _ _ => Mac.requested_served⟩

theorem of_mac (h : LinkSound s) (mac : t.mac = s.mac) : LinkSound t := by
  rw [linkSound_iff, mac]
  exact linkSound_iff.mp h

/-- The receiver and the pause timer may change while the link is UP. -/
theorem kept (h : LinkSound s) (link : t.mac.link = s.mac.link) (tx : t.mac.tx = s.mac.tx)
    (gen : t.mac.gen = s.mac.gen) (pause : s.mac.link = .down → t.mac.pauseUntil = s.mac.pauseUntil)
    (receiver : s.mac.link = .down → t.mac.receiver = s.mac.receiver ∨ t.mac.receiver = .idle) : LinkSound t where
  down down := by
    rw [link] at down
    obtain ⟨idle, unpaused, clear, silent⟩ := h.down down
    exact ⟨tx.trans idle, (pause down).trans unpaused, gen.trans clear, (receiver down).elim (·.trans silent) id⟩
  refresh := by rw [gen]; exact h.refresh
  pending := by rw [gen, tx]; exact h.pending

/-- The taking of work serves a request that waits, if the transmitter is IDLE. -/
theorem takeWork (h : s.mac.Rested) : LinkSound s.takeWork := by
  have work := s.takeWork_work
  generalize s.takeWork = t at work ⊢
  cases work with
  | busy rest =>
    refine ⟨h.down, h.refresh, fun waits idle => ?_⟩
    rcases rest with down | busy | ⟨none, -⟩
    · rw [(h.down down).2.2.1] at waits
      cases waits
    · exact busy idle
    · rw [none] at waits
      cases waits
  | flow speed q up idle pending =>
    exact ⟨fun down => absurd (up.symm.trans down) nofun, h.refresh, fun _ => nofun⟩
  | nothing v idle pending => exact ⟨h.down, h.refresh, fun waits => by rw [pending] at waits; cases waits⟩
  | station speed p v e more up idle pending unpaused examined front =>
    have mac := State.startStation_mac (s := { s with scheduler := v }) front speed
    refine ⟨fun down => ?_, ?_, fun _ => ?_⟩
    · rw [mac] at down
      exact absurd (up.symm.trans down) nofun
    · rw [mac]; exact h.refresh
    · rw [mac]; nofun

theorem rested (h : LinkSound s) : s.mac.Rested := (linkSound_iff.mp h).1

theorem moveUp (h : LinkSound s) : LinkSound s.moveUp := by
  unfold State.moveUp
  refine takeWork ((State.respond_answered _ _).keeps ?_ fun _ _ _ _ => Mac.requested_rested)
  rw [(State.raiseFlagEverywhere_keeps _ _).2.2.2.2.2.2.2.2.2.1]
  exact ⟨nofun, h.refresh⟩

theorem moveDown (s : State) : LinkSound s.moveDown := by
  rw [linkSound_iff, State.moveDown_mac]
  exact ⟨⟨fun _ => ⟨rfl, rfl, rfl, rfl⟩, rfl⟩, nofun⟩

theorem loadPause (h : LinkSound s) (q : Half) : LinkSound (s.loadPause q) := by
  unfold State.loadPause
  split
  · exact h
  · next up =>
    have unneeded : s.mac.link ≠ .down := fun down => by rw [up] at down; cases down
    split
    · split
      · exact takeWork ⟨fun down => absurd down unneeded, h.refresh⟩
      · exact h
    · exact h.kept rfl rfl rfl (fun down => absurd down unneeded) fun down => absurd down unneeded

theorem discardFrame (h : LinkSound s) (k : Handle) (c : LinkCounter) : LinkSound (s.discardFrame k c) :=
  h.kept (by simp) (by simp) (by simp) (by simp) fun _ => .inr rfl

theorem endFrame (h : LinkSound s) (k : Handle) (e : EndOutcome) : LinkSound (s.endFrame k e) := by
  unfold State.endFrame
  dsimp only
  split
  · exact h.discardFrame k _
  · exact h.discardFrame k _
  · split
    · exact h.discardFrame k _
    · split
      · exact h.discardFrame k _
      · split
        · exact h.discardFrame k _
        · split
          · exact (h.loadPause _).discardFrame k _
          · exact h.kept (by simp) (by simp) (by simp) (by simp) fun _ => .inr (by simp [State.settleFrame_eq, State.setReceiver])

theorem routed (h : LinkSound s) (k : Handle) (v : PostFlags) : LinkSound (s.routed p k v) := by
  have served : LinkSound (s.served p k v) := h.of_mac (by
    unfold State.served State.deliverPost
    split <;> simp)
  rw [State.routed_eq]
  split
  · exact takeWork (served.of_mac (by simp [State.queued])).rested
  · exact served.of_mac (by simp)

theorem post (h : LinkSound s) (k : Handle) (v : PostFlags) : LinkSound (s.post p k v).1 := by
  rw [State.post_eq]
  exact ((h.routed (p := p) k v).of_mac (by simp)).closed s

theorem effect {u : State} {r : Option ReadStream} (h : LinkSound s) (e : Effect s p u r) : LinkSound u := by
  cases e with
  | nothing => exact h
  | leave | suspend | rxrelease | cancelBuild | cancelPost | propose | endorse | txopen =>
    exact (h.of_mac (by simp)).closed s
  | txpost active k v built => exact h.post k v
  | join | rxread | resume | setaccept | claim | draft | publish | disable | retire | txwrite | object | txdone =>
    exact h.of_mac (by simp)
  | events | setmask | snapshot => exact h.of_mac (by simp)

theorem compareInputs (h : LinkSound s) : LinkSound s.compareInputs := by
  unfold State.compareInputs
  split
  · exact h.moveUp
  · exact h

theorem followInputs (h : LinkSound s) : LinkSound s.followInputs := by
  unfold State.followInputs
  split
  · exact h.moveUp
  · exact moveDown s
  · exact h

theorem dropForSpeed (h : LinkSound s) : LinkSound s.dropForSpeed := by
  unfold State.dropForSpeed
  split
  · exact h
  · exact moveDown _

end LinkSound

theorem linkSound_eventsKeep : EventsKeep LinkSound where
  quiet _ _ _ h := h.of_mac rfl
  port _ _ _ h _ := h.of_mac (by simp)
  effect _ _ _ _ _ h e _ _ _ := (LinkSound.effect h e).of_mac (by simp)
  rise s _ _ h _ _ := (h.of_mac (by simp)).closed s
  lastByte s _ _ _ h _ _ := (h.of_mac (by simp)).closed s
  presentFall _ _ h _ := (h.of_mac (by simp)).closed _
  present _ _ _ h _ := h.of_mac (by simp)
  deviceReset _ _ ran _ := by
    cases ran
    exact ⟨fun _ => ⟨rfl, rfl, rfl, rfl⟩, rfl, nofun⟩
  phyInputChange _ _ s h := (LinkSound.followInputs (h.of_mac (by simp))).closed s
  speedChange level s h := by
    have moved : LinkSound { s with pins := { s.pins with speed100 := level } } := h.of_mac rfl
    exact moved.dropForSpeed.closed s
  linkInputCompare _ h :=
    LinkSound.compareInputs (h.kept rfl rfl rfl (fun _ => rfl) fun _ => .inl rfl)
  frameStart _ _ h up _ := by
    have unneeded : ¬ _ = LinkState.down := fun down => absurd (up.symm.trans down) nofun
    exact h.kept (by simp) (by simp) (by simp) (fun down => absurd down unneeded) fun down => absurd down unneeded
  byteArrival b s k h _ := by
    refine (h.kept ?_ ?_ ?_ (fun _ => ?_) fun _ => .inl ?_).closed s <;> simp
  frameEnd e s k h _ := (h.endFrame k e).closed s
  skipped _ h _ := h.kept (by simp) (by simp) (by simp) (by simp) fun _ => .inr rfl
  transmissionComplete s p k t h sends := by
    have ended : ((s.reach t).sendEnded p k).mac.Rested :=
      ⟨fun down => absurd ((h.down (by simpa using down)).1.symm.trans sends) nofun, by simpa using h.refresh⟩
    exact LinkSound.takeWork ended.closed
  flowControlComplete s q t h sends := LinkSound.takeWork
    ⟨fun down => absurd ((h.down (by simpa using down)).1.symm.trans sends) nofun, by simpa using h.refresh⟩
  pauseTimerExpiry s t h runs := LinkSound.takeWork
    ⟨fun down => absurd ((h.down (by simpa using down)).2.1.symm.trans runs) nofun, by simpa using h.refresh⟩
  refreshTimerExpiry _ _ _ _ h up runs := LinkSound.takeWork ⟨fun down => absurd (up.symm.trans down) nofun, by
    simpa [runs] using h.refresh⟩
  holdLimitExpiry _ s _ h _ := (h.of_mac (by simp)).closed s
  proposalExpiry _ _ h _ := h.of_mac (by simp)

end Sys2Proof.Machine
end

section
/-! Every step keeps the flow-control generator in line with the free list and the thresholds (R144 to R148). -/

namespace Sys2Proof.Machine

/-- While the link is UP, a CLEAR generator means a free list at pause-on or above, and an ASSERTED one a free list below
pause-off. -/
structure InLine (s : State) : Prop where
  clear : s.mac.link ≠ .down → s.mac.gen.asserted = false →
    s.partition.installed.pauseOn.toNat ≤ s.store.freeList.length
  asserted : s.mac.gen.asserted = true → s.store.freeList.length < s.partition.installed.pauseOff.toNat

theorem generatorSound_iff {s : State} : GeneratorSound s ↔ LinkSound s ∧ PartitionSound s ∧ InLine s :=
  ⟨fun h => ⟨h.link, h.partition, h.clear, h.asserted⟩, fun ⟨l, p, c, a⟩ => ⟨l, p, c, a⟩⟩

theorem pauseOn_lt_pauseOff {r : PartitionRecord} (h : recordValid r = true) :
    r.pauseOn.toNat < r.pauseOff.toNat := by
  simp only [recordValid, Bool.and_eq_true, decide_eq_true_iff] at h
  exact h.2.2.2.1

theorem Mac.requested_link {m : Mac} {speed : Speed} {now : Nat} {q : Half} {a : Bool} {r : Option Nat} :
    (m.requested speed now q a r).link = m.link ∧ (m.requested speed now q a r).gen.asserted = a := by
  unfold Mac.requested
  split <;> exact ⟨rfl, rfl⟩

@[simp] theorem State.takeWork_asserted (s : State) : s.takeWork.mac.gen.asserted = s.mac.gen.asserted := by
  have work := s.takeWork_work
  generalize s.takeWork = t at work ⊢
  cases work with
  | busy | flow | nothing => rfl
  | station speed p v e more up idle pending unpaused examined front =>
    rw [State.startStation_mac (s := { s with scheduler := v }) front speed]

namespace InLine

variable {b s t : State} {p : Station}

theorem congr (h : InLine s) (link : t.mac.link = s.mac.link)
    (asserted : t.mac.gen.asserted = s.mac.gen.asserted)
    (installed : t.partition.installed = s.partition.installed)
    (freeList : t.store.freeList.length = s.store.freeList.length) : InLine t := by
  obtain ⟨clear, low⟩ := h
  rw [← link, ← asserted, ← installed, ← freeList] at clear
  rw [← asserted, ← installed, ← freeList] at low
  exact ⟨clear, low⟩

/-- The generator that was handed the length of the free list is in line with it (Table 7-6). -/
theorem responded (valid : recordValid s.partition.installed = true) (rested : s.mac.Rested) :
    InLine (s.respond s.store.freeList.length) := by
  have answered := s.respond_answered s.store.freeList.length
  have order := pauseOn_lt_pauseOff valid
  have kept : InLine s → (s.respond s.store.freeList.length).mac = s.mac →
      InLine (s.respond s.store.freeList.length) := fun h mac =>
    h.congr (by rw [mac]) (by rw [mac]) (by simp) (by simp)
  cases hl : s.mac.link with
  | down =>
    have clear : s.mac.gen.asserted = false := by rw [(rested.down hl).2.2.1]; rfl
    exact kept ⟨fun up => absurd hl up, fun on => absurd on (by simp [clear])⟩ (answered.down hl)
  | up speed =>
    cases ha : s.mac.gen.asserted
    · rcases Nat.lt_or_ge s.store.freeList.length s.partition.installed.pauseOn.toNat with hn | hn
      · have mac := answered.low speed hl ha hn
        constructor <;> simp [mac, Mac.requested_link]
        omega
      · exact kept ⟨fun _ _ => hn, fun on => absurd on (by simp [ha])⟩ (answered.enough ha hn)
    · rcases Nat.lt_or_ge s.store.freeList.length s.partition.installed.pauseOff.toNat with hn | hn
      · exact kept ⟨fun _ off => absurd off (by simp [ha]), fun _ => hn⟩ (answered.short ha hn)
      · have mac := answered.resumed speed hl ha hn
        constructor <;> simp [mac, Mac.requested_link]
        omega

/-- The close of an event hands the generator the length, or there was nothing to hand. -/
theorem closing (valid : recordValid s.partition.installed = true) (rested : s.mac.Rested)
    (unhanded : (State.releaseLost b s).store.freeList.length = b.store.freeList.length →
      s.partition.installed.pauseOn = b.partition.installed.pauseOn →
      s.partition.installed.pauseOff = b.partition.installed.pauseOff → InLine (State.releaseLost b s)) :
    InLine (State.closeEvent b s) := by
  unfold State.closeEvent
  dsimp only
  split
  · exact responded valid rested
  · next none =>
    rw [thresholdsChanged_iff] at none
    push Not at none
    obtain ⟨length, on, off, -⟩ := none
    exact unhanded length on off

/-- The close of an event that leaves the generator alone. -/
theorem closed (before : InLine b) (valid : recordValid s.partition.installed = true) (rested : s.mac.Rested)
    (link : s.mac.link = b.mac.link) (asserted : s.mac.gen.asserted = b.mac.gen.asserted) :
    InLine (State.closeEvent b s) := by
  refine closing valid rested fun length on off => ?_
  obtain ⟨clear, low⟩ := before
  rw [← link, ← asserted, ← length, ← on] at clear
  rw [← asserted, ← length, ← off] at low
  exact ⟨clear, low⟩

/-- The close of an event that brought the generator in line itself. -/
theorem closedAfter (after : InLine s) (valid : recordValid s.partition.installed = true) (rested : s.mac.Rested)
    (freeList : s.store.freeList = b.store.freeList) : InLine (State.closeEvent b s) :=
  closing valid rested fun length _ _ => after.congr rfl rfl rfl (by rw [length, freeList])

/-- With the link DOWN the close of an event leaves the generator CLEAR. -/
theorem closedDown (link : s.mac.link = .down) (clear : s.mac.gen.asserted = false) :
    InLine (State.closeEvent b s) := by
  have mac : (State.closeEvent b s).mac.link = .down ∧ (State.closeEvent b s).mac.gen.asserted = false :=
    State.closeEvent_mac (P := fun m => m.link = .down ∧ m.gen.asserted = false) ⟨link, clear⟩
      fun _ _ _ _ _ up _ => absurd (up.symm.trans link) nofun
  exact ⟨fun up => absurd mac.1 up, fun on => absurd on (by simp [mac.2])⟩

theorem takeWork (h : InLine s) : InLine s.takeWork := h.congr (by simp) (by simp) (by simp) (by simp)

theorem moveUp (h : LinkSound s) (valid : recordValid s.partition.installed = true) : InLine s.moveUp := by
  unfold State.moveUp
  refine takeWork (responded (by simpa using valid) ?_)
  rw [(State.raiseFlagEverywhere_keeps _ _).2.2.2.2.2.2.2.2.2.1]
  exact ⟨nofun, h.refresh⟩

theorem compareInputs (h : GeneratorSound s) : InLine s.compareInputs := by
  unfold State.compareInputs
  split
  · exact moveUp h.link h.partition.1
  · exact ⟨h.clear, h.asserted⟩

theorem followInputs (h : GeneratorSound s) (freeList : s.store.freeList = b.store.freeList) :
    InLine (State.closeEvent b s.followInputs) := by
  have valid := h.partition.1
  unfold State.followInputs
  split
  · exact closedAfter (moveUp h.link valid) (by simpa using valid) h.link.moveUp.rested (by simpa using freeList)
  · exact closedDown (by simp) (by simp; rfl)
  · exact closedAfter ⟨h.clear, h.asserted⟩ valid h.link.rested freeList

theorem dropForSpeed (h : GeneratorSound s) (freeList : s.store.freeList = b.store.freeList) :
    InLine (State.closeEvent b s.dropForSpeed) := by
  unfold State.dropForSpeed
  split
  · exact closedAfter ⟨h.clear, h.asserted⟩ h.partition.1 h.link.rested freeList
  · exact closedDown (by simp) (by simp; rfl)

theorem routed_asserted (s : State) (p : Station) (k : Handle) (v : PostFlags) :
    (s.routed p k v).mac.gen.asserted = s.mac.gen.asserted := by
  have served : (s.served p k v).mac = s.mac := by
    unfold State.served State.deliverPost
    split <;> simp
  rw [State.routed_eq]
  split
  · simp [State.queued, served]
  · simp [served]

theorem post (h : GeneratorSound s) (k : Handle) (v : PostFlags) : InLine (s.post p k v).1 := by
  have line : InLine s := ⟨h.clear, h.asserted⟩
  rw [State.post_eq]
  exact line.closed (by simpa using h.partition.1) ((h.link.routed (p := p) k v).of_mac (by simp)).rested (by simp)
    (by simp [routed_asserted])

theorem endFrame (h : GeneratorSound s) (k : Handle) (e : EndOutcome) :
    InLine (State.closeEvent s (s.endFrame k e)) := by
  have line : InLine s := ⟨h.clear, h.asserted⟩
  have asserted : (s.endFrame k e).mac.gen.asserted = s.mac.gen.asserted := by
    unfold State.endFrame State.loadPause
    dsimp only
    repeat' split
    all_goals simp
  exact line.closed (by simpa using h.partition.1) (h.link.endFrame k e).rested (by simp) asserted

theorem storeArrival (h : GeneratorSound s) (k : Handle) (b : Byte) :
    InLine (State.closeEvent s ((s.checkArrival b).storeArrival k b)) := by
  have line : InLine s := ⟨h.clear, h.asserted⟩
  refine line.closed ?_ (LinkSound.kept h.link ?_ ?_ ?_ (fun _ => ?_) fun _ => .inl ?_).rested ?_ ?_
  · simpa using h.partition.1
  all_goals simp

theorem effect {u : State} {r : Option ReadStream} (h : GeneratorSound s) (e : Effect s p u r) : InLine u := by
  have line : InLine s := ⟨h.clear, h.asserted⟩
  have partition := h.partition.effect e
  cases e with
  | nothing => exact line
  | leave | suspend | propose | endorse | rxrelease | cancelBuild | cancelPost | txopen =>
    exact line.closed (by simpa using partition.1) (h.link.of_mac (by simp)).rested (by simp) (by simp)
  | txpost active k v built => exact post h k v
  | join | rxread | resume | setaccept | claim | draft | publish | disable | retire | txwrite | object | txdone =>
    exact line.congr (by simp) (by simp) (by simp) (by simp)
  | events | setmask | snapshot => exact line.congr (by simp) (by simp) (by simp) (by simp)

end InLine

theorem inLine_eventsGive : EventsGive GeneratorSound InLine where
  quiet _ _ _ h := ⟨h.clear, h.asserted⟩
  port _ _ _ h _ := ⟨h.clear, h.asserted⟩
  effect _ _ _ _ _ h e _ _ _ := (InLine.effect h e).congr (by simp) (by simp) (by simp) (by simp)
  rise s _ _ h _ _ := InLine.closed ⟨h.clear, h.asserted⟩ (by simpa using h.partition.1)
    (h.link.of_mac (by simp)).rested (by simp) (by simp)
  lastByte s _ _ _ h _ _ := InLine.closed ⟨h.clear, h.asserted⟩ (by simpa using h.partition.1)
    (h.link.of_mac (by simp)).rested (by simp) (by simp)
  presentFall p s h on := by
    have partition := partitionSound_eventsKeep.presentFall p s h.partition on
    have low : InLine (s.setPresent p false) := ⟨h.clear, h.asserted⟩
    exact low.closed (by simpa using partition.1) (h.link.of_mac (by simp)).rested (by simp) (by simp)
  present _ _ _ h _ := ⟨h.clear, h.asserted⟩
  deviceReset _ _ ran _ := by
    cases ran
    exact ⟨fun up => absurd rfl up, nofun⟩
  phyInputChange i v s h := by
    have changed : GeneratorSound (s.setPhy i v) := by
      cases i <;> exact generatorSound_iff.mpr ⟨h.link.of_mac rfl, h.partition.of_keeps rfl rfl, h.clear, h.asserted⟩
    exact InLine.followInputs changed (by simp)
  speedChange level s h := by
    have changed : GeneratorSound { s with pins := { s.pins with speed100 := level } } :=
      generatorSound_iff.mpr ⟨h.link.of_mac rfl, h.partition.of_keeps rfl rfl, h.clear, h.asserted⟩
    exact InLine.dropForSpeed changed rfl
  linkInputCompare s h := by
    have compared : GeneratorSound { s with mac := { s.mac with comparePending := false } } :=
      generatorSound_iff.mpr ⟨h.link.kept rfl rfl rfl (fun _ => rfl) fun _ => .inl rfl,
        h.partition.of_keeps rfl rfl, h.clear,
        h.asserted⟩
    exact InLine.compareInputs compared
  frameStart _ _ h _ _ := InLine.congr ⟨h.clear, h.asserted⟩ (by simp) (by simp) (by simp) (by simp)
  byteArrival b _ k h _ := InLine.storeArrival h k b
  frameEnd e _ k h _ := InLine.endFrame h k e
  skipped _ h _ := ⟨h.clear, h.asserted⟩
  transmissionComplete s p k t h sends := by
    have ended : ((s.reach t).sendEnded p k).mac.Rested :=
      ⟨fun down => absurd ((h.link.down (by simpa using down)).1.symm.trans sends) nofun, by
        simpa using h.link.refresh⟩
    exact InLine.takeWork (InLine.closed ⟨h.clear, h.asserted⟩ (by simpa using h.partition.1) ended (by simp)
      (by simp))
  flowControlComplete _ _ _ h _ :=
    InLine.congr ⟨h.clear, h.asserted⟩ (by simp) (by simp) (by simp) (by simp)
  pauseTimerExpiry _ _ h _ := InLine.congr ⟨h.clear, h.asserted⟩ (by simp) (by simp) (by simp) (by simp)
  refreshTimerExpiry _ _ _ _ h _ _ :=
    InLine.takeWork (InLine.congr ⟨h.clear, h.asserted⟩ (by simp) (by simp) (by simp) (by simp))
  holdLimitExpiry _ s _ h _ := InLine.closed ⟨h.clear, h.asserted⟩ (by simpa using h.partition.1)
    (h.link.of_mac (by simp)).rested (by simp) (by simp)
  proposalExpiry _ _ h _ := InLine.congr ⟨h.clear, h.asserted⟩ (by simp) (by simp) (by simp) (by simp)

/-- Settles O59: the generator is handed every length and every threshold that could put it out of line, and answers
by Table 7-6. -/
theorem stepKeepsGeneratorSound : Obligations.StepKeepsGeneratorSound := by
  have parts := ((linkSound_eventsKeep.of_imp fun _ (h : GeneratorSound _) => h.link).and
    (partitionSound_eventsKeep.of_imp fun _ (h : GeneratorSound _) => h.partition)).and inLine_eventsGive
  exact EventsKeep.step (parts.mono (fun _ => id) fun _ ⟨⟨link, partition⟩, line⟩ =>
    generatorSound_iff.mpr ⟨link, partition, line⟩)

end Sys2Proof.Machine
end

section
/-! The examination of the post queues: what each visit does, whom it chooses, and that it always chooses when a frame
waits (R125, R126). -/

namespace Sys2Proof.Machine

/-! ### One visit -/

theorem examine_empty {weights : Per Nat} {heads : Per (Option Nat)} {v : Scheduler}
    (empty : heads.get v.pointer = none) (visits empties : Nat) :
    examine weights heads (visits + 1) empties v = if empties + 1 = 4
      then (none, v.write v.pointer 0 false v.pointer.next)
      else examine weights heads visits (empties + 1) (v.write v.pointer 0 false v.pointer.next) := by
  rw [examine]
  simp only [empty]

theorem examine_fits {weights : Per Nat} {heads : Per (Option Nat)} {v : Scheduler} {len : Nat}
    (head : heads.get v.pointer = some len) (fits : len ≤ v.creditedDeficit weights v.pointer)
    (visits empties : Nat) : examine weights heads (visits + 1) empties v = (some v.pointer,
      v.write v.pointer (v.creditedDeficit weights v.pointer - len) true v.pointer) := by
  rw [examine]
  simp only [head, fits, if_true]

theorem examine_waits {weights : Per Nat} {heads : Per (Option Nat)} {v : Scheduler} {len : Nat}
    (head : heads.get v.pointer = some len) (waits : v.creditedDeficit weights v.pointer < len)
    (visits empties : Nat) : examine weights heads (visits + 1) empties v = examine weights heads visits 0
      (v.write v.pointer (v.creditedDeficit weights v.pointer) false v.pointer.next) := by
  rw [examine]
  simp only [head, Nat.not_le.mpr waits, if_false]

/-- A visit to another station leaves the deficit that a station is examined with. -/
theorem Scheduler.creditedDeficit_write_ne {v : Scheduler} {weights : Per Nat} {p q r : Station} {d : Nat}
    {c : Bool} (other : q ≠ p) :
    (v.write p d c r).creditedDeficit weights q = v.creditedDeficit weights q := by
  simp [Scheduler.creditedDeficit, Scheduler.write, Per.get_set, other]

/-- A visit that ends without a choice lets the deficit grow by the weight. -/
theorem Scheduler.creditedDeficit_write_self {v : Scheduler} {weights : Per Nat} {p r : Station} {d : Nat} :
    (v.write p d false r).creditedDeficit weights p = d + weights.get p * 256 := by
  simp [Scheduler.creditedDeficit, Scheduler.write, creditPerWeight]

/-- What an invariant needs to hold after an examination: that each kind of visit keeps it. -/
theorem examine_keeps {weights : Per Nat} {heads : Per (Option Nat)} {P : Scheduler → Prop}
    (empty : ∀ v : Scheduler, P v → P (v.write v.pointer 0 false v.pointer.next))
    (fits : ∀ v len, P v → heads.get v.pointer = some len → len ≤ v.creditedDeficit weights v.pointer →
      P (v.write v.pointer (v.creditedDeficit weights v.pointer - len) true v.pointer))
    (waits : ∀ v len, P v → heads.get v.pointer = some len → v.creditedDeficit weights v.pointer < len →
      P (v.write v.pointer (v.creditedDeficit weights v.pointer) false v.pointer.next)) :
    ∀ (bound empties : Nat) (v : Scheduler), P v → P (examine weights heads bound empties v).2 := by
  intro bound
  induction bound with
  | zero => exact fun _ _ h => h
  | succ bound ih =>
    intro empties v h
    cases head : heads.get v.pointer with
    | none =>
      rw [examine_empty head]
      split
      · exact empty v h
      · exact ih _ _ (empty v h)
    | some len =>
      rcases Nat.lt_or_ge (v.creditedDeficit weights v.pointer) len with short | enough
      · rw [examine_waits head short]
        exact ih _ _ (waits v len h head short)
      · rw [examine_fits head enough]
        exact fits v len h head enough

/-! ### Whom an examination chooses -/

/-- The chosen station, what was added to its deficit, and what was taken off. -/
structure Chosen (weights : Per Nat) (heads : Per (Option Nat)) (v w : Scheduler) (p : Station) (len more : Nat) :
    Prop where
  head : heads.get p = some len
  pointer : w.pointer = p
  credited : w.credited.get p = true
  spent : w.deficit.get p + len = v.creditedDeficit weights p + more * (weights.get p * 256)
  needed : more ≠ 0 → v.creditedDeficit weights p + (more - 1) * (weights.get p * 256) < len

theorem examine_chooses {weights : Per Nat} {heads : Per (Option Nat)} {p : Station} {w : Scheduler} :
    ∀ (bound empties : Nat) (v : Scheduler), examine weights heads bound empties v = (some p, w) →
      ∃ len more, Chosen weights heads v w p len more := by
  intro bound
  induction bound with
  | zero => intro _ _ h; cases h
  | succ bound ih =>
    intro empties v h
    cases head : heads.get v.pointer with
    | none =>
      rw [examine_empty head] at h
      split at h
      · cases h
      · obtain ⟨len, more, c⟩ := ih _ _ h
        have other : p ≠ v.pointer := by
          rintro rfl
          exact absurd (head.symm.trans c.head) nofun
        obtain ⟨chosen, pointer, credited, spent, needed⟩ := c
        rw [Scheduler.creditedDeficit_write_ne other] at spent needed
        exact ⟨len, more, chosen, pointer, credited, spent, needed⟩
    | some len =>
      rcases Nat.lt_or_ge (v.creditedDeficit weights v.pointer) len with short | enough
      · rw [examine_waits head short] at h
        obtain ⟨len', more, chosen, pointer, credited, spent, needed⟩ := ih _ _ h
        by_cases other : p = v.pointer
        · subst other
          cases head.symm.trans chosen
          rw [Scheduler.creditedDeficit_write_self] at spent needed
          refine ⟨len, more + 1, chosen, pointer, credited, by rw [spent]; ring, fun _ => ?_⟩
          rcases more with _ | more
          · simpa using short
          · have := needed (by simp)
            simp only [Nat.add_sub_cancel] at this ⊢
            linarith
        · rw [Scheduler.creditedDeficit_write_ne other] at spent needed
          exact ⟨len', more, chosen, pointer, credited, spent, needed⟩
      · rw [examine_fits head enough] at h
        cases h
        refine ⟨len, 0, head, rfl, by simp [Scheduler.write], ?_, by simp⟩
        simp only [Scheduler.write, Per.get_set_self]
        omega

/-! ### That an examination chooses -/

/-- The number of visits from one station to another. -/
def visitsAhead (p q : Station) : Nat := (q.idx + 4 - p.idx) % 4

theorem visitsAhead_next {p q : Station} (other : p ≠ q) : visitsAhead p.next q + 1 = visitsAhead p q := by
  revert other; cases p <;> cases q <;> decide

theorem visitsAhead_next_self (p : Station) : visitsAhead p.next p = 3 := by cases p <;> decide

theorem visitsAhead_le (p q : Station) : visitsAhead p q ≤ 3 := by cases p <;> cases q <;> decide

/-- The visits that a frame of a length may still have to wait for its station's deficit. -/
def Scheduler.wanting (v : Scheduler) (weights : Per Nat) (q : Station) (len : Nat) : Nat :=
  (len - v.creditedDeficit weights q + 255) / 256

/-- An examination with enough visits chooses, if one station's queue is not empty. -/
theorem examine_chooses_of_head {weights : Per Nat} {heads : Per (Option Nat)} {q : Station} {len : Nat}
    (weighs : 1 ≤ weights.get q) (head : heads.get q = some len) :
    ∀ (bound empties : Nat) (v : Scheduler), empties + visitsAhead v.pointer q < 4 →
      visitsAhead v.pointer q + 4 * v.wanting weights q len < bound →
      ∃ p, (examine weights heads bound empties v).1 = some p := by
  intro bound
  induction bound with
  | zero => intro _ _ _ h; omega
  | succ bound ih =>
    intro empties v row enough
    have visit : ∀ d c, v.pointer ≠ q →
        visitsAhead (v.write v.pointer d c v.pointer.next).pointer q + 1 = visitsAhead v.pointer q ∧
        (v.write v.pointer d c v.pointer.next).wanting weights q len = v.wanting weights q len := fun d c other =>
      ⟨visitsAhead_next other, by
        rw [Scheduler.wanting, Scheduler.creditedDeficit_write_ne other.symm, Scheduler.wanting]⟩
    cases front : heads.get v.pointer with
    | none =>
      have other : v.pointer ≠ q := by
        rintro rfl
        exact absurd (front.symm.trans head) nofun
      obtain ⟨ahead, wanting⟩ := visit 0 false other
      rw [examine_empty front, if_neg (by omega)]
      exact ih _ _ (by omega) (by omega)
    | some len' =>
      rcases Nat.lt_or_ge (v.creditedDeficit weights v.pointer) len' with short | fits
      · rw [examine_waits front short]
        by_cases other : v.pointer = q
        · rw [other] at front short enough
          cases head.symm.trans front
          have ahead : visitsAhead (v.write v.pointer (v.creditedDeficit weights v.pointer) false
              v.pointer.next).pointer q = 3 := by
            rw [← other]; exact visitsAhead_next_self _
          have wanting : (v.write v.pointer (v.creditedDeficit weights v.pointer) false
              v.pointer.next).wanting weights q len + 1 ≤ v.wanting weights q len := by
            rw [other, Scheduler.wanting, Scheduler.creditedDeficit_write_self, Scheduler.wanting]
            omega
          refine ih _ _ ?_ ?_ <;> omega
        · obtain ⟨ahead, wanting⟩ := visit (v.creditedDeficit weights v.pointer) false other
          exact ih _ _ (by omega) (by omega)
      · rw [examine_fits front fits]
        exact ⟨_, rfl⟩

/-- With frames of at most 1514 bytes, the examination chooses whenever one waits. -/
theorem examine_always {weights : Per Nat} {heads : Per (Option Nat)} {q : Station} {len : Nat} (v : Scheduler)
    (weighs : 1 ≤ weights.get q) (head : heads.get q = some len) (short : len ≤ 1514) :
    ∃ p, (examine weights heads examinationBound 0 v).1 = some p := by
  have ahead := visitsAhead_le v.pointer q
  refine examine_chooses_of_head weighs head _ _ _ (by omega) ?_
  unfold Scheduler.wanting examinationBound
  omega

/-- With all queues empty, four visits clear every deficit and credit mark. -/
theorem examine_idle {weights : Per Nat} {heads : Per (Option Nat)} (v : Scheduler)
    (empty : ∀ p, heads.get p = none) : examine weights heads examinationBound 0 v =
      (none, { pointer := v.pointer, deficit := Per.const 0, credited := Per.const false }) := by
  have visits : examinationBound = 28 + 1 + 1 + 1 + 1 := rfl
  rw [visits, examine_empty (empty _), if_neg (by decide), examine_empty (empty _), if_neg (by decide),
    examine_empty (empty _), if_neg (by decide), examine_empty (empty _), if_pos (by decide)]
  obtain ⟨pointer, deficit, credited⟩ := v
  refine Prod.ext rfl ?_
  cases pointer <;> rfl

/-- Settles O42: each frame that waits comes within reach of its station's deficit in seven of its visits, and 32 visits hold
them. -/
theorem examinationAlwaysChooses : Obligations.ExaminationAlwaysChooses := by
  refine ⟨fun s p => ⟨?_, ?_⟩, fun weights heads v => ⟨?_, ?_, ?_, examine_idle v⟩⟩
  · simp [State.weights, State.share]
  · simp [State.headLengths]
  · rintro visits empties _ empty rfl
    exact examine_empty empty visits empties
  · rintro visits empties len _ head rfl
    exact ⟨fun fits => examine_fits head fits visits empties, fun waits => examine_waits head waits visits empties⟩
  · rintro weighs short ⟨q, waiting⟩
    obtain ⟨len, head⟩ := Option.ne_none_iff_exists'.mp waiting
    obtain ⟨p, chosen⟩ := examine_always v (weighs q) head (short q len head)
    obtain ⟨len', more, c⟩ := examine_chooses _ _ v (Prod.ext chosen rfl)
    exact ⟨p, len', _, _, more, Prod.ext chosen rfl, c.head, c.pointer, c.credited, rfl, c.spent, c.needed⟩

end Sys2Proof.Machine
end

section
/-! Every step keeps stored frames and waiting posts within 1514 bytes (R3, Table 6-2). -/

namespace Sys2Proof.Machine

theorem wireLengthOf_le {n : Nat} (h : n ≤ 1514) : wireLengthOf n ≤ 1514 := by
  unfold wireLengthOf minWireLength
  omega

namespace LengthsBounded

variable {b s t : State} {p : Station}

theorem of_parts (h : LengthsBounded s) (length : ∀ k, (t.frame k).length ≤ 1514 ∨
    (t.frame k).length = (s.frame k).length)
    (posts : ∀ q, ∀ e ∈ (t.posts.get q).queue, ∃ x ∈ (s.posts.get q).queue, e.wireLength = x.wireLength) :
    LengthsBounded t := by
  refine ⟨fun k => (length k).elim id fun same => same ▸ h.1 k, fun q e member => ?_⟩
  obtain ⟨x, member, same⟩ := posts q e member
  rw [same]
  exact h.2 q x member

theorem of_same (h : LengthsBounded s) (length : ∀ k, (t.frame k).length = (s.frame k).length)
    (posts : t.posts = s.posts) : LengthsBounded t :=
  h.of_parts (fun k => .inr (length k)) fun _ e member => ⟨e, posts ▸ member, rfl⟩

/-- Post queues that lose entries. -/
theorem of_sublist (h : LengthsBounded s) (length : ∀ k, (t.frame k).length = (s.frame k).length)
    (posts : ∀ q, ∀ e ∈ (t.posts.get q).queue, e ∈ (s.posts.get q).queue) : LengthsBounded t :=
  h.of_parts (fun k => .inr (length k)) fun q e member => ⟨e, posts q e member, rfl⟩

theorem closed (h : LengthsBounded s) (b : State) : LengthsBounded (State.closeEvent b s) := by
  refine h.of_parts (fun k => ?_) fun _ e member => ⟨e, by simpa using member, rfl⟩
  rw [State.closeEvent_frame]
  split
  · exact .inl (by simp [Frame.free])
  · exact .inr rfl

theorem takeWork (h : LengthsBounded s) : LengthsBounded s.takeWork := by
  refine h.of_parts (fun k => .inr (by simp)) fun q e member => ?_
  have work := s.takeWork_work
  generalize s.takeWork = t at work member
  cases work with
  | busy | nothing => exact ⟨e, member, rfl⟩
  | flow => exact ⟨e, by simpa using member, rfl⟩
  | station speed p v x more up idle pending unpaused examined front =>
    rw [State.startStation_posts (s := { s with scheduler := v }) front speed, Per.get_set] at member
    split at member
    · next same =>
      subst same
      rcases List.mem_cons.mp member with rfl | member
      · exact ⟨x, front ▸ List.mem_cons_self, rfl⟩
      · exact ⟨e, front ▸ List.mem_cons_of_mem x member, rfl⟩
    · exact ⟨e, member, rfl⟩

theorem queued (h : LengthsBounded s) (k : Handle) (n : Nat) : LengthsBounded (s.queued p k n) := by
  refine ⟨fun j => by simpa using h.1 j, fun q e member => ?_⟩
  rw [State.queued_queue] at member
  split at member
  · rcases List.mem_append.mp member with member | member
    · exact h.2 q e member
    · rw [List.mem_singleton.mp member]
      exact wireLengthOf_le (h.1 k)
  · exact h.2 q e member

theorem served (h : LengthsBounded s) (k : Handle) (v : PostFlags) : LengthsBounded (s.served p k v) := by
  refine h.of_sublist (by simp [State.served]) fun q e member => ?_
  rwa [(s.served_queue p k v q).1] at member

theorem routed (h : LengthsBounded s) (k : Handle) (v : PostFlags) : LengthsBounded (s.routed p k v) := by
  have served := h.served (p := p) k v
  rw [State.routed_eq]
  split
  · exact (served.queued k _).takeWork
  · exact served.of_sublist (by simp) fun q e member => by rwa [State.containPost_queue] at member

theorem post (h : LengthsBounded s) (k : Handle) (v : PostFlags) : LengthsBounded (s.post p k v).1 := by
  rw [State.post_eq]
  exact ((h.routed (p := p) k v).of_same (by simp) (by simp)).closed s

theorem reportEnd_queue {k : Handle} {o : PostOutcome} {q : Station} {e : PostEntry}
    (member : e ∈ ((s.reportEnd p k o).posts.get q).queue) : e ∈ (s.posts.get q).queue := by
  rw [State.reportEnd_queue] at member
  split at member
  · exact List.mem_of_mem_tail member
  · exact member

theorem sendEnded (h : LengthsBounded s) (k : Handle) : LengthsBounded (s.sendEnded p k) := by
  refine h.of_sublist (by simp) fun q e member => ?_
  have same : (s.sendEnded p k).posts = ((s.countSent p k).reportEnd p k .sent).posts := by
    simp [State.sendEnded]
  rw [same] at member
  simpa using reportEnd_queue member

theorem moveDown (h : LengthsBounded s) : LengthsBounded s.moveDown := by
  refine h.of_sublist (by simp) fun q e member => ?_
  rw [State.moveDown_queue] at member
  split at member
  · split at member
    · exact List.mem_of_mem_tail member
    · exact member
  · exact member

theorem moveUp (h : LengthsBounded s) : LengthsBounded s.moveUp := by
  unfold State.moveUp
  exact takeWork (h.of_same (by simp) (by simp))

theorem cancelPost (h : LengthsBounded s) (e : PostEntry) : LengthsBounded (s.cancelPost p e) := by
  refine h.of_sublist (by simp) fun q x member => ?_
  rw [State.cancelPost_queue] at member
  split at member
  · exact (List.mem_filter.mp member).1
  · exact member

theorem teardown (h : LengthsBounded s) : LengthsBounded (s.teardown p) := by
  refine h.of_sublist (by simp) fun q e member => ?_
  rw [State.teardown_posts, Per.get_set] at member
  split at member
  · cases member
  · exact member

theorem loadPause (h : LengthsBounded s) (q : Half) : LengthsBounded (s.loadPause q) := by
  unfold State.loadPause
  split
  · exact h
  · split
    · split
      · exact takeWork (h.of_same (by simp) (by simp))
      · exact h
    · exact h.of_same (by simp) (by simp)

theorem endFrame (h : LengthsBounded s) (k : Handle) (e : EndOutcome) : LengthsBounded (s.endFrame k e) := by
  have discard : ∀ {x : State} (c : LinkCounter), LengthsBounded x → LengthsBounded (x.discardFrame k c) :=
    fun c hx => hx.of_same (by simp) (by simp)
  unfold State.endFrame
  dsimp only
  split
  · exact discard _ h
  · exact discard _ h
  · split
    · exact discard _ h
    · split
      · exact discard _ h
      · split
        · exact discard _ h
        · split
          · exact discard _ (h.loadPause _)
          · exact h.of_same (by simp) (by simp)

theorem storeArrival (h : LengthsBounded s) (k : Handle) (c : Byte) : LengthsBounded (s.storeArrival k c) := by
  have arrival := s.storeArrival_arrival k c
  generalize s.storeArrival k c = t at arrival ⊢
  cases arrival with
  | flagged => exact h
  | tooLong => exact h.of_same (fun j => by simp; split <;> simp_all) (by simp)
  | truncated => exact h.of_same (fun j => by simp; split <;> simp_all) (by simp)
  | granule fits =>
    refine h.of_parts (fun j => ?_) fun _ e member => ⟨e, by simpa using member, rfl⟩
    by_cases same : j = k
    · subst same; exact .inl (by simpa using fits)
    · exact .inr (by simp [same])
  | stored fits =>
    refine h.of_parts (fun j => ?_) fun _ e member => ⟨e, by simpa using member, rfl⟩
    by_cases same : j = k
    · subst same; exact .inl (by simpa using fits)
    · exact .inr (by simp [same])

theorem requestSlot (h : LengthsBounded s) : LengthsBounded s.requestSlot := by
  cases found : lowestFree s.store.frames with
  | none =>
    have skipped : s.requestSlot = (s.countLink .noSlot 1).setReceiver .skipping := by
      rw [State.requestSlot, found]
    rw [skipped]
    exact h.of_same (by simp) (by simp)
  | some k =>
    refine h.of_parts (fun j => ?_) fun _ e member => ⟨e, by simpa using member, rfl⟩
    rw [(State.requestSlot_granted found).1]
    split
    · exact .inl (by simp [Frame.filling])
    · exact .inr rfl

theorem openBuild (h : LengthsBounded s) {k : Handle} {n : Nat} (fits : n ≤ 1514) :
    LengthsBounded (s.openBuild p k n) := by
  refine h.of_parts (fun j => ?_) fun _ e member => ⟨e, by simpa using member, rfl⟩
  have frame : (s.openBuild p k n).frame j = if j = k
      then Frame.build p n (s.store.freeList.take (granulesFor n)) else s.frame j := by simp [State.openBuild]
  rw [frame]
  split
  · exact .inl fits
  · exact .inr rfl

theorem effect {u : State} {r : Option ReadStream} (h : LengthsBounded s) (e : Effect s p u r) :
    LengthsBounded u := by
  cases e with
  | nothing => exact h
  | leave => exact h.teardown.closed s
  | suspend | rxrelease | cancelBuild | propose | endorse =>
    exact (h.of_same (by simp) (by simp)).closed s
  | cancelPost active e => exact (h.cancelPost e).closed s
  | txopen active k n fits => exact (h.openBuild fits).closed s
  | txpost active k v built => exact h.post k v
  | txdone active c rest =>
    have queue := State.setPosts_queue (s := s) (p := p) (v := { s.posts.get p with completions := rest }) rfl
    exact h.of_sublist (by simp) fun q e member => queue q ▸ member
  | join => exact h.of_sublist (by simp) fun q e member => by rwa [State.startSession_queue] at member
  | rxread | resume | setaccept | claim | draft | publish | disable | retire | txwrite | object =>
    exact h.of_same (by simp) (by simp)
  | events | setmask | snapshot => exact h.of_same (by simp) (by simp)

theorem followInputs (h : LengthsBounded s) : LengthsBounded s.followInputs := by
  unfold State.followInputs
  split
  · exact h.moveUp
  · exact h.moveDown
  · exact h

theorem compareInputs (h : LengthsBounded s) : LengthsBounded s.compareInputs := by
  unfold State.compareInputs
  split
  · exact h.moveUp
  · exact h

theorem dropForSpeed (h : LengthsBounded s) : LengthsBounded s.dropForSpeed := by
  unfold State.dropForSpeed
  split
  · exact h
  · exact moveDown (h.of_same (by simp) (by simp))

end LengthsBounded

theorem lengthsBounded_eventsKeep : EventsKeep LengthsBounded where
  quiet _ _ _ h := h
  port _ _ _ h _ := h
  effect _ _ _ _ _ h e _ _ _ := (LengthsBounded.effect h e).of_same (by simp) (by simp)
  rise s _ _ h _ _ := (h.of_same (by simp) (by simp)).closed s
  lastByte s _ _ _ h _ _ := (h.of_same (by simp) (by simp)).closed s
  presentFall p s h _ := by
    have low : LengthsBounded ((s.setPresent p false).setPort p ((s.setPresent p false).ports.get p).abandon) := h
    exact low.teardown.closed _
  present _ _ _ h _ := h
  deviceReset _ _ ran _ := by
    cases ran
    refine ⟨fun k => ?_, fun q e member => ?_⟩
    · have frame : (State.reset.frame k).length = 0 := congrArg Frame.length (Table.get_const _ k)
      exact frame.le.trans (by decide)
    · have none : (State.reset.posts.get q).queue = [] := congrArg PostPath.queue (Per.get_const _ q)
      exact absurd (none ▸ member) List.not_mem_nil
  phyInputChange _ _ s h := (LengthsBounded.followInputs (h.of_same (by simp) (by simp))).closed s
  speedChange level s h := by
    have moved : LengthsBounded { s with pins := { s.pins with speed100 := level } } := h
    exact moved.dropForSpeed.closed s
  linkInputCompare _ h := LengthsBounded.compareInputs (h.of_same (by simp) (by simp))
  frameStart _ _ h _ _ := h.requestSlot
  byteArrival b s k h _ := by
    have checked : LengthsBounded (s.checkArrival b) := h.of_same (by simp) (by simp)
    exact (checked.storeArrival k b).closed s
  frameEnd e s k h _ := (h.endFrame k e).closed s
  skipped _ h _ := h
  transmissionComplete s p k t h _ := by
    have reached : LengthsBounded (s.reach t) := h.of_same (by simp) (by simp)
    exact ((reached.sendEnded k).closed s).takeWork
  flowControlComplete _ _ _ h _ := LengthsBounded.takeWork (h.of_same (by simp) (by simp))
  pauseTimerExpiry _ _ h _ := LengthsBounded.takeWork (h.of_same (by simp) (by simp))
  refreshTimerExpiry _ _ _ _ h _ _ := LengthsBounded.takeWork (h.of_same (by simp) (by simp))
  holdLimitExpiry _ s _ h _ := (h.of_same (by simp) (by simp)).closed s
  proposalExpiry _ _ h _ := h.of_same (by simp) (by simp)

end Sys2Proof.Machine
end

section
/-! Every step keeps the transmitter working while a post waits, and the deficits within R126's bounds (R126, R142). -/

namespace Sys2Proof.Machine

/-! ### The deficits -/

/-- The deficits within R126's bounds. -/
def Scheduler.Bounded (v : Scheduler) : Prop :=
  ∀ p, v.deficit.get p ≤ if v.credited.get p then 5609 else 1513

theorem Scheduler.Bounded.write {v : Scheduler} (h : v.Bounded) {p q : Station} {d : Nat} {c : Bool}
    (bound : d ≤ if c then 5609 else 1513) : (v.write p d c q).Bounded := fun r => by
  simp only [Scheduler.write, Per.get_set]
  split
  · exact bound
  · exact h r

theorem Scheduler.Bounded.credited {v : Scheduler} (h : v.Bounded) {weights : Per Nat} {p : Station}
    (light : weights.get p ≤ 16) : v.creditedDeficit weights p ≤ 5609 := by
  have bound := h p
  unfold Scheduler.creditedDeficit creditPerWeight
  split
  · next on => rwa [if_pos on] at bound
  · next off =>
    rw [if_neg off] at bound
    omega

theorem Scheduler.bounded_reset : Scheduler.reset.Bounded := fun p => by cases p <;> decide

/-- An examination keeps the deficits within their bounds. -/
theorem Scheduler.Bounded.examined {v : Scheduler} (h : v.Bounded) {weights : Per Nat} {heads : Per (Option Nat)}
    (light : ∀ p, weights.get p ≤ 16) (short : ∀ p len, heads.get p = some len → len ≤ 1514)
    (bound empties : Nat) : (examine weights heads bound empties v).2.Bounded := by
  refine examine_keeps (P := Scheduler.Bounded) (fun v h => h.write (Nat.zero_le _))
    (fun v len h _ _ => h.write ?_) (fun v len h head waits => h.write ?_) bound empties v h
  · have := h.credited (light v.pointer)
    rw [if_pos rfl]
    omega
  · have := short _ _ head
    rw [if_neg (by simp)]
    omega

theorem weight_bounds {s : State} (valid : recordValid s.partition.installed = true) (p : Station) :
    1 ≤ s.weights.get p ∧ s.weights.get p ≤ 16 := by
  simp only [recordValid, Bool.and_eq_true, List.all_eq_true] at valid
  have share := valid.1 p (Station.mem_all p)
  simp only [shareValid, decide_eq_true_iff] at share
  obtain ⟨-, -, low, high⟩ := share
  simpa [State.weights, State.share] using ⟨low, high⟩

theorem LengthsBounded.heads {s : State} (h : LengthsBounded s) (p : Station) (len : Nat)
    (head : s.headLengths.get p = some len) : len ≤ 1514 := by
  rw [State.headLengths, Per.get_of] at head
  cases queue : (s.posts.get p).queue with
  | nil => simp [queue] at head
  | cons e more =>
    simp only [queue, List.head?_cons, Option.map_some, Option.some.injEq] at head
    rw [← head]
    exact h.2 p e (queue ▸ List.mem_cons_self)

/-! ### The transmitter at work -/

/-- A Link MAC that has no reason to leave a post waiting. -/
def Mac.Free (m : Mac) : Prop := m.link ≠ .down ∧ m.tx = .idle ∧ m.pauseUntil = none

/-- The deficits are in bounds, and a post waits only for the link, the transmitter or a pause. -/
structure Working (s : State) : Prop where
  deficits : s.scheduler.Bounded
  work : s.mac.Free → ∀ p, (s.posts.get p).queue = []

theorem workConserved_iff {s : State} : WorkConserved s ↔
    PartitionSound s ∧ LinkSound s ∧ LengthsBounded s ∧ Working s :=
  ⟨fun h => ⟨h.partition, h.link, h.lengths, h.deficits, fun free => h.work free.1 free.2.1 free.2.2⟩,
    fun ⟨partition, link, lengths, work⟩ => ⟨partition, link, lengths, work.deficits, fun up idle unpaused =>
      work.work ⟨up, idle, unpaused⟩⟩⟩

theorem Mac.requested_busy {m : Mac} {speed : Speed} {now : Nat} {q : Half} {a : Bool} {r : Option Nat} :
    ¬ (m.requested speed now q a r).Free := by
  rintro ⟨-, idle, -⟩
  unfold Mac.requested at idle
  split at idle
  · cases idle
  · next busy => exact busy idle

namespace Working

variable {b s t : State} {p : Station}

theorem of_parts (h : Working s) (scheduler : t.scheduler = s.scheduler) (free : t.mac.Free → s.mac.Free)
    (posts : ∀ q, (s.posts.get q).queue = [] → (t.posts.get q).queue = []) : Working t :=
  ⟨scheduler ▸ h.deficits, fun now q => posts q (h.work (free now) q)⟩

theorem of_same (h : Working s) (scheduler : t.scheduler = s.scheduler) (mac : t.mac = s.mac)
    (posts : t.posts = s.posts) : Working t :=
  h.of_parts scheduler (by rw [mac]; exact id) fun q none => by rwa [posts]

theorem closed (h : Working s) (b : State) : Working (State.closeEvent b s) := by
  refine ⟨by simpa using h.deficits, fun free q => ?_⟩
  have before : (State.closeEvent b s).mac.Free → s.mac.Free :=
    State.closeEvent_mac (P := fun m => m.Free → s.mac.Free) id fun _ _ _ _ _ _ _ busy =>
      absurd busy Mac.requested_busy
  simpa using h.work (before free) q

/-- The taking of work leaves no post waiting without a reason. -/
theorem takeWork (deficits : s.scheduler.Bounded) (valid : recordValid s.partition.installed = true)
    (lengths : LengthsBounded s) : Working s.takeWork := by
  have examined := deficits.examined (fun p => (weight_bounds valid p).2) lengths.heads examinationBound 0
  have work := s.takeWork_work
  generalize s.takeWork = t at work ⊢
  cases work with
  | busy reason =>
    refine ⟨deficits, fun ⟨up, idle, unpaused⟩ => ?_⟩
    rcases reason with down | busy | ⟨-, paused⟩
    · exact absurd down up
    · exact absurd idle busy
    · exact absurd unpaused paused
  | flow speed q up idle pending => exact ⟨deficits, fun ⟨_, idle, _⟩ => by cases idle⟩
  | nothing v idle pending unpaused none =>
    rw [none] at examined
    refine ⟨examined, fun _ p => ?_⟩
    cases queue : (s.posts.get p).queue with
    | nil => rfl
    | cons e more =>
      have head : s.headLengths.get p = some e.wireLength := by simp [State.headLengths, queue]
      obtain ⟨q, chosen⟩ := examine_always s.scheduler (weight_bounds valid p).1 head (lengths.heads p _ head)
      rw [none] at chosen
      cases chosen
  | station speed p v e more up idle pending unpaused chosen front =>
    rw [chosen] at examined
    refine ⟨by simpa using examined, fun ⟨_, idle, _⟩ => ?_⟩
    rw [State.startStation_mac (s := { s with scheduler := v }) front speed] at idle
    cases idle

/-- The taking of work in a hub with the scheduler and the weights of another one. -/
theorem works (h : WorkConserved s) (scheduler : t.scheduler = s.scheduler) (partition : t.partition = s.partition)
    (lengths : LengthsBounded t) : Working t.takeWork :=
  takeWork (scheduler ▸ h.deficits) (partition ▸ h.partition.1) lengths

theorem down (deficits : s.scheduler.Bounded) (down : s.mac.link = .down) : Working s :=
  ⟨deficits, fun free => absurd down free.1⟩

theorem moveUp (h : WorkConserved s) : Working s.moveUp := by
  have lengths := h.lengths
  unfold State.moveUp
  exact works h (by simp) (by simp) (lengths.of_same (by simp) (by simp))

theorem moveDown (h : Working s) : Working s.moveDown := by
  have scheduler : s.moveDown.scheduler = s.scheduler := by simp
  exact down (scheduler ▸ h.deficits) (by simp)

theorem followInputs (h : WorkConserved s) : Working s.followInputs := by
  obtain ⟨-, -, -, working⟩ := workConserved_iff.mp h
  unfold State.followInputs
  split
  · exact moveUp h
  · exact working.moveDown
  · exact working

theorem compareInputs (h : WorkConserved s) : Working s.compareInputs := by
  obtain ⟨-, -, -, working⟩ := workConserved_iff.mp h
  unfold State.compareInputs
  split
  · exact moveUp h
  · exact working

theorem dropForSpeed (h : Working s) : Working s.dropForSpeed := by
  unfold State.dropForSpeed
  split
  · exact h
  · exact moveDown ⟨h.deficits, h.work⟩

theorem teardown (h : Working s) : Working (s.teardown p) := by
  have scheduler : (s.teardown p).scheduler = s.scheduler.write p 0 false s.scheduler.pointer := by
    simp [State.teardown, State.clearScheduler, Scheduler.write]
  refine ⟨scheduler ▸ h.deficits.write (Nat.zero_le _), fun free q => ?_⟩
  rw [State.teardown_posts, Per.get_set]
  split
  · rfl
  · exact h.work (by simpa using free) q

theorem discardFrame (h : Working s) (k : Handle) (c : LinkCounter) : Working (s.discardFrame k c) :=
  h.of_parts (by simp) (by simp [Mac.Free]) fun q none => by simpa using none

theorem loadPause (h : WorkConserved s) (q : Half) : Working (s.loadPause q) := by
  obtain ⟨-, -, lengths, working⟩ := workConserved_iff.mp h
  unfold State.loadPause
  split
  · exact working
  · split
    · split
      · exact takeWork h.deficits h.partition.1 lengths
      · exact working
    · exact ⟨h.deficits, fun ⟨_, _, unpaused⟩ => by cases unpaused⟩

theorem endFrame (h : WorkConserved s) (k : Handle) (e : EndOutcome) : Working (s.endFrame k e) := by
  obtain ⟨-, -, -, working⟩ := workConserved_iff.mp h
  unfold State.endFrame
  dsimp only
  split
  · exact working.discardFrame k _
  · exact working.discardFrame k _
  · split
    · exact working.discardFrame k _
    · split
      · exact working.discardFrame k _
      · split
        · exact working.discardFrame k _
        · split
          · exact (loadPause h _).discardFrame k _
          · exact working.of_parts (by simp) (by simp [Mac.Free]) fun q none => by simpa using none

theorem routed (h : WorkConserved s) (k : Handle) (v : PostFlags) : Working (s.routed p k v) := by
  obtain ⟨-, -, lengths, working⟩ := workConserved_iff.mp h
  have kept : (s.served p k v).scheduler = s.scheduler ∧ (s.served p k v).mac = s.mac ∧
      (s.served p k v).partition = s.partition := by
    unfold State.served State.deliverPost
    split <;> simp
  obtain ⟨scheduler, mac, installed⟩ := kept
  rw [State.routed_eq]
  split
  · exact works h (by simp [State.queued, scheduler]) (by simp [State.queued, installed])
      ((lengths.served (p := p) k v).queued k _)
  · refine working.of_parts (by simp [scheduler]) (by simp [mac]) fun q none => ?_
    rw [State.containPost_queue, (s.served_queue p k v q).1, none]

theorem effect {u : State} {r : Option ReadStream} (h : WorkConserved s) (e : Effect s p u r) : Working u := by
  obtain ⟨-, -, -, working⟩ := workConserved_iff.mp h
  cases e with
  | nothing => exact working
  | leave => exact working.teardown.closed s
  | suspend | rxrelease | cancelBuild | propose | endorse | txopen =>
    exact (working.of_same (by simp) (by simp) (by simp)).closed s
  | cancelPost active e =>
    refine (working.of_parts (by simp) (by simp) fun q none => ?_).closed s
    rw [State.cancelPost_queue, none]
    simp
  | txpost active k v built =>
    rw [State.post_eq]
    exact ((routed (p := p) h k v).of_same (by simp) (by simp) (by simp)).closed s
  | txdone active c rest =>
    have queue := State.setPosts_queue (s := s) (p := p) (v := { s.posts.get p with completions := rest }) rfl
    exact working.of_parts (by simp) (by simp) fun q none => (queue q).trans none
  | join => exact working.of_parts (by simp) (by simp) fun q none => (s.startSession_queue p q).trans none
  | rxread | resume | setaccept | claim | draft | publish | disable | retire | txwrite | object =>
    exact working.of_same (by simp) (by simp) (by simp)
  | events | setmask | snapshot => exact working.of_same (by simp) (by simp) (by simp)

end Working

theorem working_eventsGive : EventsGive WorkConserved Working where
  quiet _ _ _ h := ⟨h.deficits, (workConserved_iff.mp h).2.2.2.work⟩
  port _ _ _ h _ := ⟨h.deficits, (workConserved_iff.mp h).2.2.2.work⟩
  effect _ _ _ _ _ h e _ _ _ := (Working.effect h e).of_same (by simp) (by simp) (by simp)
  rise s _ _ h _ _ := ((workConserved_iff.mp h).2.2.2.of_same (by simp) (by simp) (by simp)).closed s
  lastByte s _ _ _ h _ _ := ((workConserved_iff.mp h).2.2.2.of_same (by simp) (by simp) (by simp)).closed s
  presentFall p s h _ := by
    have low : Working ((s.setPresent p false).setPort p ((s.setPresent p false).ports.get p).abandon) :=
      (workConserved_iff.mp h).2.2.2.of_same (by simp) (by simp) (by simp)
    exact low.teardown.closed _
  present _ _ _ h _ := (workConserved_iff.mp h).2.2.2.of_same (by simp) (by simp) (by simp)
  deviceReset _ _ ran _ := by
    cases ran
    exact Working.down Scheduler.bounded_reset rfl
  phyInputChange i v s h := by
    have changed : WorkConserved (s.setPhy i v) := by
      obtain ⟨partition, link, lengths, working⟩ := workConserved_iff.mp h
      exact workConserved_iff.mpr ⟨partition.of_keeps (by simp) (by simp), link.of_mac (by simp),
        lengths.of_same (by simp) (by simp), working.of_same (by simp) (by simp) (by simp)⟩
    exact (Working.followInputs changed).closed s
  speedChange level s h := by
    have moved : Working { s with pins := { s.pins with speed100 := level } } :=
      (workConserved_iff.mp h).2.2.2.of_same rfl rfl rfl
    exact moved.dropForSpeed.closed s
  linkInputCompare s h := by
    obtain ⟨partition, link, lengths, working⟩ := workConserved_iff.mp h
    have compared : WorkConserved { s with mac := { s.mac with comparePending := false } } :=
      workConserved_iff.mpr ⟨partition.of_keeps rfl rfl, link.kept rfl rfl rfl (fun _ => rfl) fun _ => .inl rfl,
        lengths.of_same (by simp) (by simp), working.of_parts rfl id fun _ => id⟩
    exact Working.compareInputs compared
  frameStart _ _ h _ _ :=
    (workConserved_iff.mp h).2.2.2.of_parts (by simp) (by simp [Mac.Free]) fun q none => by simpa using none
  byteArrival b s k h _ := by
    refine ((workConserved_iff.mp h).2.2.2.of_parts (by simp) ?_ fun q none => by simpa using none).closed s
    simp [Mac.Free]
  frameEnd e s k h _ := (Working.endFrame h k e).closed s
  skipped _ h _ := (workConserved_iff.mp h).2.2.2.of_parts (by simp) (by simp [Mac.Free]) fun q none => by simpa using none
  transmissionComplete s p k t h _ := by
    have reached : LengthsBounded (s.reach t) := h.lengths.of_same (by simp) (by simp)
    exact Working.works h (by simp) (by simp)
      ((reached.sendEnded k).closed s)
  flowControlComplete _ _ _ h _ := Working.works h (by simp) (by simp)
    (h.lengths.of_same (by simp) (by simp))
  pauseTimerExpiry _ _ h _ := Working.works h (by simp) (by simp)
    (h.lengths.of_same (by simp) (by simp))
  refreshTimerExpiry _ _ _ _ h _ _ := Working.works h (by simp) (by simp)
    (h.lengths.of_same (by simp) (by simp))
  holdLimitExpiry _ s _ h _ := ((workConserved_iff.mp h).2.2.2.of_same (by simp) (by simp) (by simp)).closed s
  proposalExpiry _ _ h _ := (workConserved_iff.mp h).2.2.2.of_same (by simp) (by simp) (by simp)

/-- Settles O60: the transmitter is told of each post, of each end of a transmission or a pause, and of the link that comes
up, and then an examination always chooses. -/
theorem stepKeepsWorkConserved : Obligations.StepKeepsWorkConserved := by
  have parts := (((partitionSound_eventsKeep.of_imp fun _ (h : WorkConserved _) => h.partition).and
    (linkSound_eventsKeep.of_imp fun _ (h : WorkConserved _) => h.link)).and
    (lengthsBounded_eventsKeep.of_imp fun _ (h : WorkConserved _) => h.lengths)).and working_eventsGive
  exact EventsKeep.step (parts.mono (fun _ => id) fun _ ⟨⟨⟨partition, link⟩, lengths⟩, working⟩ =>
    workConserved_iff.mpr ⟨partition, link, lengths, working⟩)

end Sys2Proof.Machine
end

section
/-! The Steering Table's entries after each operation that touches them, and the blocks of a station after its teardown
(R30 to R36, R39, R43, R79 to R83). -/

namespace Sys2Proof.Machine

/-! ### Entries -/

theorem State.entry_of_entries {s t : State} (h : t.table.entries = s.table.entries) (i : EntryIndex) :
    t.entry i = s.entry i := by rw [State.entry, h]; rfl

theorem State.setEntry_entry (s : State) (i j : EntryIndex) (e : Entry) :
    (s.setEntry i e).entry j = if j = i then e else s.entry j := Table.get_set _ i j e

theorem State.publish_entry (s : State) (p : Station) (i j : EntryIndex) (c : Contents) :
    (s.publish p i c).entry j = if j = i
      then { state := .active, owner := some p, contents := some c, hits := 0 } else s.entry j := by
  rw [← State.setEntry_entry]
  exact State.entry_of_entries (by simp [State.publish, State.raiseGeneration]) j

theorem State.disable_entry (s : State) (i j : EntryIndex) : (s.disable i).entry j =
    if j = i ∧ (s.entry i).state = .active then { s.entry i with state := .idle } else s.entry j := by
  unfold State.disable
  split
  · next active =>
    rw [State.entry_of_entries (s := s.setEntry i { s.entry i with state := .idle })
      (by simp [State.raiseGeneration]), State.setEntry_entry]
    simp [active]
  · next other => simp [other]

theorem State.retire_entry (s : State) (p : Station) (i j : EntryIndex) :
    (s.retire p i).entry j = if j = i then Entry.free else s.entry j := by
  rw [← State.setEntry_entry]
  refine State.entry_of_entries ?_ j
  unfold State.retire
  dsimp only
  split <;> simp [State.raiseGeneration]

/-- Classification changes the hits of entries only. -/
theorem State.classify_entry (s : State) (h : Handle) (o : Origin) (i : EntryIndex) :
    (s.classify h o).entry i = if i ∈ (s.walkFrame h o).matched
      then { s.entry i with hits := satAdd (s.entry i).hits 1 } else s.entry i := by
  rw [← State.raiseHits_entry]
  refine State.entry_of_entries ?_ i
  simp [State.classify]

theorem State.classify_owner (s : State) (h : Handle) (o : Origin) (i : EntryIndex) :
    ((s.classify h o).entry i).owner = (s.entry i).owner := by
  rw [State.classify_entry]
  split <;> rfl

/-! ### The teardown (Table 4-5) -/

theorem State.teardown_session (s : State) (p q : Station) : (s.teardown p).session q =
    if q = p then { state := .offline, number := (s.session p).number, accept := 0, defaultIntake := .none }
    else { s.session q with accept := eraseStation (s.session q).accept p } := by
  have sessions : (s.teardown p).sessions = (((s.dropStationHolds p).retireOwned p).goOffline p).sessions := by
    simp [State.teardown]
  rw [State.session, sessions]
  simp only [State.goOffline, Per.get_of]
  by_cases e : q = p
  · subst e; simp [State.session]
  · simp [e, State.session]

theorem State.teardown_entry (s : State) (p : Station) (i : EntryIndex) : (s.teardown p).entry i =
    if (s.entry i).owner = some p then Entry.free else s.entry i := by
  have entries : (s.teardown p).table.entries =
      s.table.entries.mapIdx fun _ e => if e.owner = some p then Entry.free else e := by
    simp [State.teardown, State.retireOwned, State.dropStationHolds]
  rw [State.entry, entries, Table.get_mapIdx]
  rfl

theorem State.teardown_table (s : State) (p : Station) :
    (s.teardown p).table.drafts = s.table.drafts.set p none ∧
      (s.teardown p).table.generation =
        if s.ownsActive p then s.table.generation + 1 else s.table.generation := by
  simp [State.teardown, State.retireOwned, State.dropStationHolds, State.ownsActive]

theorem State.teardown_scheduler (s : State) (p : Station) : (s.teardown p).scheduler =
    { s.scheduler with deficit := s.scheduler.deficit.set p 0, credited := s.scheduler.credited.set p false } := by
  simp [State.teardown, State.clearScheduler]

theorem State.teardown_intake_self (s : State) (p : Station) : (s.teardown p).intake.get p = [] := by
  rw [State.teardown_intake, State.teardownDrops, if_pos rfl, List.drop_length]

theorem Holds.Within.heldBy {x y : Holds} (h : x.Within y) {p : Station} (held : x.heldBy p = true) :
    y.heldBy p = true := by
  simp only [Holds.heldBy, Bool.or_eq_true] at held ⊢
  exact held.imp (Or.imp (Or.imp (h.build p) (h.intake p)) (h.read p)) (h.post p)

theorem State.teardown_heldBy (s : State) (p : Station) (k : Handle) :
    ((s.teardown p).frame k).holds.heldBy p = false := by
  rw [State.teardown_frame]
  simp [Holds.heldBy, Holds.withoutStation]

end Sys2Proof.Machine
end

section
/-! Every step keeps an OFFLINE station without a share of the hub, and accept sets to stations in session (R67, R68, R80,
R83). -/

namespace Sys2Proof.Machine

/-! ### What an OFFLINE station has not, it is not given -/

theorem Holds.heldBy_eq {x : Holds} {p : Station} : x.heldBy p = true ↔ inSet x.build p = true ∨
    inSet x.intake p = true ∨ inSet x.read p = true ∨ inSet x.post p = true := by
  simp only [Holds.heldBy, Bool.or_eq_true, or_assoc]

/-- The end of a transmission is reported to no station without posts. -/
theorem State.reportEnd_unposted {s : State} {p q : Station} {k : Handle} {o : PostOutcome}
    (unposted : (s.posts.get q).queue = []) : (s.reportEnd p k o).posts.get q = s.posts.get q := by
  unfold State.reportEnd
  split
  · split
    · rfl
    · next e more front =>
      have other : q ≠ p := by
        rintro rfl
        rw [unposted] at front
        cases front
      simp [State.complete, Per.get_set_ne _ _ other]
  · rfl

namespace NothingHeld

variable {b s t : State} {p : Station}

/-- An operation that gives a station nothing. -/
theorem kept (h : NothingHeld s p)
    (holds : ∀ k, (t.frame k).holds.heldBy p = true → (s.frame k).holds.heldBy p = true)
    (owner : ∀ i, (t.entry i).owner = some p → (s.entry i).owner = some p)
    (session : t.session p = s.session p := by simp [State.session])
    (draft : t.table.drafts.get p = s.table.drafts.get p := by simp)
    (intake : t.intake.get p = s.intake.get p := by simp)
    (posts : t.posts.get p = s.posts.get p := by simp)
    (scheduler : t.scheduler = s.scheduler := by simp) : NothingHeld t p where
  accept := by rw [session]; exact h.accept
  intakeMode := by rw [session]; exact h.intakeMode
  draft := draft.trans h.draft
  entries i owned := h.entries i (owner i owned)
  intake := intake.trans h.intake
  posts := posts.trans h.posts
  holds k := Bool.eq_false_iff.mpr fun held => Bool.eq_false_iff.mp (h.holds k) (holds k held)
  deficit := by rw [scheduler]; exact h.deficit
  credited := by rw [scheduler]; exact h.credited

theorem closed (h : NothingHeld s p) (b : State) : NothingHeld (State.closeEvent b s) p :=
  h.kept (fun k => by rw [State.closeEvent_holds]; exact id)
    fun i => by rw [State.entry_of_entries (s := s) (by simp)]; exact id

/-- An examination leaves a station without posts without a deficit. -/
theorem takeWork (h : NothingHeld s p) : NothingHeld s.takeWork p := by
  have unposted : s.headLengths.get p = none := by simp [State.headLengths, h.posts]
  have examined : ∀ w, (examine s.weights s.headLengths examinationBound 0 s.scheduler).2 = w →
      w.deficit.get p = 0 ∧ w.credited.get p = false := by
    rintro w rfl
    refine examine_keeps (P := fun v => v.deficit.get p = 0 ∧ v.credited.get p = false) (fun v kept => ?_)
      (fun v len kept head _ => ?_) (fun v len kept head _ => ?_) _ _ _ ⟨h.deficit, h.credited⟩
    · simp only [Scheduler.write, Per.get_set]
      split
      · exact ⟨rfl, rfl⟩
      · exact kept
    all_goals
      have other : p ≠ v.pointer := by
        rintro rfl
        exact absurd (unposted.symm.trans head) nofun
      simpa [Scheduler.write, Per.get_set, other] using kept
  have holds : ∀ k, (s.takeWork.frame k).holds.heldBy p = true → (s.frame k).holds.heldBy p = true := fun k => by
    simp [Holds.heldBy]
  have scheduled : s.takeWork.scheduler.deficit.get p = 0 ∧ s.takeWork.scheduler.credited.get p = false ∧
      s.takeWork.posts.get p = s.posts.get p := by
    have work := s.takeWork_work
    generalize s.takeWork = t at work ⊢
    cases work with
    | busy | flow => exact ⟨h.deficit, h.credited, rfl⟩
    | nothing v idle pending unpaused none =>
      have kept := examined v (by rw [none])
      exact ⟨kept.1, kept.2, rfl⟩
    | station speed q v e more up idle pending unpaused chosen front =>
      have kept := examined v (by rw [chosen])
      have other : p ≠ q := by
        rintro rfl
        rw [h.posts] at front
        cases front
      rw [State.startStation_posts (s := { s with scheduler := v }) front speed, Per.get_set_ne _ _ other]
      simpa using kept
  obtain ⟨deficit, credited, posts⟩ := scheduled
  exact {
    accept := by simpa [State.session] using h.accept
    intakeMode := by simpa [State.session] using h.intakeMode
    draft := by simpa using h.draft
    entries := fun i => by rw [State.entry_of_entries (s := s) (by simp)]; exact h.entries i
    intake := by simpa using h.intake
    posts := posts.trans h.posts
    holds := fun k => Bool.eq_false_iff.mpr fun held => Bool.eq_false_iff.mp (h.holds k) (holds k held)
    deficit := deficit
    credited := credited }

/-- A teardown leaves its station nothing. -/
theorem torn (s : State) (p : Station) : NothingHeld (s.teardown p) p where
  accept := by rw [State.teardown_session, if_pos rfl]
  intakeMode := by rw [State.teardown_session, if_pos rfl]
  draft := by rw [(s.teardown_table p).1, Per.get_set_self]
  entries i owned := by
    rw [State.teardown_entry] at owned
    split at owned
    · cases owned
    · next other => exact other owned
  intake := s.teardown_intake_self p
  posts := by rw [State.teardown_posts, Per.get_set_self]
  holds := s.teardown_heldBy p
  deficit := by rw [State.teardown_scheduler]; simp
  credited := by rw [State.teardown_scheduler]; simp

/-- A teardown gives other stations nothing. -/
theorem teardown (h : NothingHeld s p) {q : Station} (other : p ≠ q) : NothingHeld (s.teardown q) p where
  accept := by rw [State.teardown_session, if_neg other, h.accept]; exact set_ext fun _ => by simp [inSet_erase]
  intakeMode := by rw [State.teardown_session, if_neg other]; exact h.intakeMode
  draft := by rw [(s.teardown_table q).1, Per.get_set_ne _ _ other]; exact h.draft
  entries i owned := by
    rw [State.teardown_entry] at owned
    split at owned
    · cases owned
    · exact h.entries i owned
  intake := by rw [State.teardown_intake, h.intake]; simp
  posts := by rw [State.teardown_posts, Per.get_set_ne _ _ other]; exact h.posts
  holds k := Bool.eq_false_iff.mpr fun held =>
    Bool.eq_false_iff.mp (h.holds k) ((s.teardown_reduced q k).2.heldBy held)
  deficit := by rw [State.teardown_scheduler]; simpa [Per.get_set_ne _ _ other] using h.deficit
  credited := by rw [State.teardown_scheduler]; simpa [Per.get_set_ne _ _ other] using h.credited

/-- The offer of a frame at the stations in session leaves the others alone. -/
theorem unadmitted {h : Handle} (offline : s.inSession p = false) : inSet (s.admittedOf h) p = false := by
  cases classified : (s.frame h).result with
  | none => rw [State.admittedOf, classified]; exact inSet_empty p
  | some r =>
    rw [State.admittedOf_eq classified, Bool.eq_false_iff]
    intro admitted
    have decided := (State.admitters_iff.mp admitted).2
    simp [State.decide, offline] at decided

theorem settleFrame (h : NothingHeld s p) (offline : s.inSession p = false) (k : Handle) :
    NothingHeld (s.settleFrame k) p := by
  have unadmitted : inSet ((s.arrived k).admittedOf k) p = false :=
    unadmitted ((State.inSession_of_sessions (by simp [State.arrived]) p).trans offline)
  have queue := (s.arrived k).admission_intake k p
  rw [if_neg (by simp [unadmitted])] at queue
  refine h.kept (fun j held => ?_) (fun i owned => ?_) (intake := ?_)
  · rw [Holds.heldBy_eq, s.settleFrame_intake_hold] at held
    rw [Holds.heldBy_eq]
    by_cases e : j = k
    · simpa [e, unadmitted] using held
    · simpa [e] using held
  · have entry : ((s.settleFrame k).entry i).owner = (s.entry i).owner := by
      rw [State.settleFrame_eq, State.entry_of_entries (s := s.arrived k) (by simp), State.arrived, State.classify_owner]
      exact congrArg Entry.owner (State.entry_of_entries (by simp) i)
    rwa [entry] at owned
  · have same : (s.settleFrame k).intake = ((s.arrived k).admission k).1.intake := by simp [State.settleFrame_eq]
    rw [same, queue, State.arrived_intake]

theorem served (h : NothingHeld s p) (offline : s.inSession p = false) {q : Station} (other : p ≠ q) (k : Handle)
    (v : PostFlags) : NothingHeld (s.served q k v) p := by
  have unadmitted : inSet (s.delivered q k v) p = false := by
    unfold State.delivered
    split
    · exact inSet_empty p
    · exact unadmitted ((State.inSession_of_sessions (by simp [State.classified]) p).trans offline)
  refine h.kept (fun j held => ?_) (fun i owned => ?_) ?_ ?_ (intake := ?_) (posts := ?_) ?_
  · rw [Holds.heldBy_eq, s.served_intake_hold] at held
    rw [Holds.heldBy_eq]
    by_cases e : j = k
    · simpa [e, unadmitted, State.served] using held
    · simpa [e, State.served] using held
  · have entry : ((s.served q k v).entry i).owner = (s.entry i).owner := by
      unfold State.served State.deliverPost
      split
      · exact congrArg Entry.owner (State.entry_of_entries (by simp) i)
      · rw [State.entry_of_entries (s := (s.settlePost q k).classify k (.station q)) (by simp), State.classify_owner]
        exact congrArg Entry.owner (State.entry_of_entries (by simp) i)
    rwa [entry] at owned
  · simp [State.served, State.session]
  · simp [State.served]
  · have handles := s.served_handles q k v p
    rw [if_neg (by simp [unadmitted]), State.intakeHandles, State.intakeHandles, h.intake] at handles
    rw [List.map_eq_nil_iff.mp handles, h.intake]
  · have posts : (s.served q k v).posts = (s.settlePost q k).posts := by simp [State.served]
    rw [posts]
    simp [State.settlePost, Per.get_set_ne _ _ other]
  · simp [State.served]

/-- A post of another station, and the queue entry, completion and start that it may lead to. -/
theorem routed (h : NothingHeld s p) (offline : s.inSession p = false) {q : Station} (other : p ≠ q) (k : Handle)
    (v : PostFlags) : NothingHeld (s.routed q k v) p := by
  have served := h.served offline other k v
  rw [State.routed_eq]
  split
  · refine takeWork (served.kept (fun j held => ?_) (fun i => ?_) ?_ ?_ ?_ ?_ ?_)
    · rw [Holds.heldBy_eq, State.queued_frame] at held
      rw [Holds.heldBy_eq]
      refine held.imp_right (Or.imp_right (Or.imp_right fun post => ?_))
      dsimp only at post
      split at post
      · rwa [inSet_insert_of_ne other] at post
      · exact post
    · rw [State.entry_of_entries (s := s.served q k v) (by simp [State.queued])]
      exact id
    · simp [State.session, State.queued]
    · simp [State.queued]
    · simp [State.queued]
    · simp [State.queued, Per.get_set_ne _ _ other]
    · simp [State.queued]
  · refine served.kept (by simp) (fun i => ?_) (posts := ?_)
    · rw [State.entry_of_entries (s := s.served q k v) (by simp)]
      exact id
    · simp [State.containPost, State.complete, Per.get_set_ne _ _ other]

/-- Holds taken off frames, and nothing else that concerns a station. -/
theorem reduced (h : NothingHeld s p) (reduced : s.Reduced t) (sessions : t.sessions = s.sessions := by simp)
    (table : t.table = s.table := by simp)
    (intake : s.intake.get p = [] → t.intake.get p = [] := by simp)
    (posts : t.posts.get p = s.posts.get p := by simp)
    (scheduler : t.scheduler = s.scheduler := by simp) : NothingHeld t p :=
  h.kept (fun k => (reduced k).2.heldBy) (fun i => by rw [State.entry_of_entries (s := s) (by rw [table])]; exact id)
    (by rw [State.session, sessions]; rfl) (by rw [table]) ((intake h.intake).trans h.intake.symm) posts scheduler

end NothingHeld

namespace SessionsSound

variable {b s t x : State} {p : Station}

theorem kept (h : SessionsSound s) (nothing : ∀ q, s.inSession q = false → NothingHeld s q → NothingHeld t q)
    (sessions : t.sessions = s.sessions := by simp) (pins : t.pins.present = s.pins.present := by simp) :
    SessionsSound t := by
  have inSession := State.inSession_of_sessions sessions
  have accepts : ∀ q r, t.accepts q r = s.accepts q r := fun q r => by
    rw [State.accepts, State.session, sessions]; rfl
  refine ⟨fun q offline => ?_, fun q r => ?_, fun q => ?_⟩
  · rw [inSession] at offline
    exact nothing q offline (h.offline q offline)
  · rw [accepts, inSession]; exact h.accepted q r
  · rw [inSession, pins]; exact h.present q

theorem closed (h : SessionsSound s) (b : State) : SessionsSound (State.closeEvent b s) :=
  h.kept fun _ _ nothing => nothing.closed b

theorem takeWork (h : SessionsSound s) : SessionsSound s.takeWork := h.kept fun _ _ nothing => nothing.takeWork

/-- Only the session of one station changes, and it is in session before and after. -/
theorem ofSession (h : SessionsSound s) (online : s.inSession p = true) {v : Session} (state : v.state ≠ .offline)
    (accept : ∀ q, inSet v.accept q = true → q ≠ p ∧ s.inSession q = true) : SessionsSound (s.setSession p v) := by
  have session : ∀ q, (s.setSession p v).session q = if q = p then v else s.session q := fun q => by
    simp only [State.session, State.setSession, Per.get_set]
  have inSession : ∀ q, (s.setSession p v).inSession q = s.inSession q := fun q => by
    rw [State.inSession, session]
    split
    · next e => subst e; rw [online]; simpa using state
    · rfl
  refine ⟨fun q offline => ?_, fun q r => ?_, fun q => ?_⟩
  · rw [inSession] at offline
    have other : q ≠ p := by rintro rfl; rw [online] at offline; cases offline
    exact (h.offline q offline).kept (by simp) (fun i => by
      rw [State.entry_of_entries (s := s) (by simp)]; exact id) (by rw [session, if_neg other])
  · rw [State.accepts, session, inSession]
    split
    · next e => subst e; exact accept r
    · exact h.accepted q r
  · rw [inSession]; simpa using h.present q

/-- The teardown of a station, whose own PRESENT line may have fallen. -/
theorem torn (h : SessionsSound s) (sessions : x.sessions = s.sessions)
    (nothing : ∀ q, NothingHeld s q → NothingHeld x q)
    (present : ∀ q, q ≠ p → x.pins.present.get q = s.pins.present.get q) : SessionsSound (x.teardown p) := by
  have session : ∀ q, x.session q = s.session q := fun q => by rw [State.session, sessions]; rfl
  have self : (x.teardown p).inSession p = false := by
    rw [State.inSession, State.teardown_session, if_pos rfl]
    rfl
  have others : ∀ q, q ≠ p → (x.teardown p).inSession q = s.inSession q := fun q other => by
    rw [State.inSession, State.teardown_session, if_neg other, session]
    rfl
  refine ⟨fun q offline => ?_, fun q r accepts => ?_, fun q online => ?_⟩
  · by_cases own : q = p
    · subst own; exact NothingHeld.torn x q
    · rw [others q own] at offline
      exact (nothing q (h.offline q offline)).teardown own
  · rw [State.accepts, State.teardown_session] at accepts
    split at accepts
    · exact absurd accepts (by simp)
    · simp only [inSet_erase, Bool.and_eq_true, Bool.not_eq_true', decide_eq_false_iff_not] at accepts
      obtain ⟨before, other⟩ := accepts
      obtain ⟨apart, online⟩ := h.accepted q r (by rwa [session] at before)
      exact ⟨apart, (others r (Ne.symm other)).trans online⟩
  · have own : q ≠ p := by rintro rfl; rw [self] at online; cases online
    rw [others q own] at online
    simpa [present q own] using h.present q online

/-- A station that comes into session. -/
theorem joined (h : SessionsSound s) (present : s.pins.present.get p = true) : SessionsSound (s.startSession p) := by
  have session : ∀ q, (s.startSession p).session q = if q = p then (s.session p).joined else s.session q := fun q => by
    simp [State.startSession, State.session, Per.get_set]
  have inSession : ∀ q, (s.startSession p).inSession q = true ↔ q = p ∨ s.inSession q = true := fun q => by
    rw [State.inSession, session]
    by_cases e : q = p
    · simp [e, Session.joined]
    · simp [e, State.inSession]
  refine ⟨fun q offline => ?_, fun q r accepts => ?_, fun q online => ?_⟩
  · have before : ¬ (q = p ∨ s.inSession q = true) := fun c => by
      rw [(inSession q).mpr c] at offline
      cases offline
    obtain ⟨other, offline⟩ := not_or.mp before
    refine (h.offline q (Bool.eq_false_iff.mpr offline)).kept (by simp) (fun i => ?_) ?_ ?_ (posts := ?_)
    · rw [State.entry_of_entries (s := s) (by simp)]; exact id
    · rw [session, if_neg other]
    · simp [State.startSession, State.setDraft, Per.get_set_ne _ _ other]
    · simp [State.startSession, Per.get_set_ne _ _ other]
  · rw [State.accepts, session] at accepts
    split at accepts
    · exact absurd accepts (by simp [Session.joined])
    · obtain ⟨apart, online⟩ := h.accepted q r accepts
      exact ⟨apart, (inSession r).mpr (.inr online)⟩
  · rw [inSession] at online
    have now : (s.startSession p).pins = s.pins := by simp
    rw [now]
    rcases online with rfl | online
    · exact present
    · exact h.present q online

theorem other_of_active (active : (s.session p).state = .active) {q : Station} (offline : s.inSession q = false) :
    q ≠ p := by
  rintro rfl
  simp [State.inSession, active] at offline

theorem effect {u : State} {r : Option ReadStream} (h : SessionsSound s) (e : Effect s p u r) :
    SessionsSound u := by
  cases e with
  | nothing => exact h
  | join offline present => exact h.joined present
  | leave => exact (h.torn rfl (fun _ => id) fun _ _ => rfl).closed s
  | suspend active =>
    have online : s.inSession p = true := by simp [State.inSession, active]
    have suspended : SessionsSound (s.setSession p { s.session p with state := .suspended }) :=
      h.ofSession online nofun fun q => h.accepted p q
    refine (suspended.kept fun q _ nothing => nothing.reduced (State.departActive_reduced _ p)
      (intake := fun none => ?_)).closed s
    rw [State.departActive_intake, none]
    exact List.drop_nil
  | resume suspended =>
    have online : s.inSession p = true := by simp [State.inSession, suspended]
    exact h.ofSession online nofun fun q => h.accepted p q
  | setaccept active set value other =>
    have online : s.inSession p = true := by simp [State.inSession, active]
    refine h.ofSession online (by simp [active]) fun q accepts => ?_
    simp only [State.onlineOf, inSet_stationsWhere, Bool.and_eq_true] at accepts
    refine ⟨?_, accepts.2⟩
    rintro rfl
    rw [other] at accepts
    cases accepts.1
  | claim active i free =>
    refine h.kept fun q offline nothing => nothing.kept (by simp) fun j owned => ?_
    rw [State.setEntry_entry] at owned
    split at owned
    · exact absurd (Option.some.inj owned).symm (other_of_active active offline)
    · exact owned
  | draft active c =>
    refine h.kept fun q offline nothing => nothing.kept (by simp) (fun j => ?_) (draft := ?_)
    · rw [State.entry_of_entries (s := s) (by simp)]; exact id
    · simp [State.setDraft, Per.get_set_ne _ _ (other_of_active active offline)]
  | publish active i c =>
    refine h.kept fun q offline nothing => nothing.kept (by simp) fun j owned => ?_
    rw [State.publish_entry] at owned
    split at owned
    · exact absurd (Option.some.inj owned).symm (other_of_active active offline)
    · exact owned
  | disable active i =>
    refine h.kept fun q offline nothing => nothing.kept (by simp) fun j owned => ?_
    rw [State.disable_entry] at owned
    split at owned
    · next same => exact same.1 ▸ owned
    · exact owned
  | retire active i =>
    refine h.kept fun q offline nothing => nothing.kept (by simp) fun j owned => ?_
    rw [State.retire_entry] at owned
    split at owned
    · cases owned
    · exact owned
  | rxread active r =>
    refine h.kept fun q offline nothing => nothing.kept (fun k held => ?_) fun j => ?_
    · have other := other_of_active active offline
      rw [Holds.heldBy_eq, State.addReadHold_frame] at held
      rw [Holds.heldBy_eq]
      refine held.imp_right (Or.imp_right (Or.imp_left fun read => ?_))
      dsimp only at read
      split at read
      · rwa [inSet_insert_of_ne other] at read
      · exact read
    · rw [State.entry_of_entries (s := s) (by simp)]; exact id
  | rxrelease active k =>
    refine (h.kept fun q _ nothing => nothing.reduced (s.removeEntry_reduced p k) (intake := fun none => ?_)).closed s
    have shorter := s.removeEntry_length p k q
    rw [none] at shorter
    exact List.length_eq_zero_iff.mp (Nat.le_zero.mp shorter)
  | txopen active k n =>
    refine (h.kept fun q offline nothing => nothing.kept (fun j held => ?_) fun j => ?_).closed s
    · have other := other_of_active active offline
      have frame : (s.openBuild p k n).frame j = if j = k
        then Frame.build p n (s.store.freeList.take (granulesFor n)) else s.frame j := by simp [State.openBuild]
      rw [frame] at held
      split at held
      · exact absurd held (by cases p <;> cases q <;> simp_all [Frame.build, Holds.heldBy, Holds.none])
      · exact held
    · rw [State.entry_of_entries (s := s) (by simp)]; exact id
  | txwrite =>
    refine h.kept fun q _ nothing => nothing.kept (by simp) fun j => ?_
    rw [State.entry_of_entries (s := s) (by simp)]; exact id
  | txpost active k v built =>
    rw [State.post_eq]
    refine (h.kept fun q offline nothing => ?_).closed s
    have routed := nothing.routed offline (other_of_active active offline) k v
    refine routed.kept (fun j => ?_) fun j => ?_
    · rw [State.countPost_frame]
      exact ((s.routed p k v).dropBuildHold_reduced p k j).2.heldBy
    · rw [State.entry_of_entries (s := s.routed p k v) (by simp)]; exact id
  | cancelBuild active k =>
    exact (h.kept fun q _ nothing => nothing.reduced (s.dropBuildHold_reduced p k)).closed s
  | cancelPost active e =>
    refine (h.kept fun q offline nothing => nothing.reduced (s.cancelPost_reduced p e) (posts := ?_)).closed s
    simp [State.cancelPost, State.complete, Per.get_set_ne _ _ (other_of_active active offline)]
  | txdone active =>
    refine h.kept fun q offline nothing => nothing.kept (by simp) (fun j => ?_) (posts := ?_)
    · rw [State.entry_of_entries (s := s) (by simp)]; exact id
    · simp [Per.get_set_ne _ _ (other_of_active active offline)]
  | propose active r =>
    refine (h.kept fun q _ nothing => nothing.reduced (s.propose_reduced p r) (intake := fun none => ?_)).closed s
    rw [State.propose_intake, none]
    exact List.drop_nil
  | endorse active o =>
    refine (h.kept fun q _ nothing => nothing.reduced (s.settleProposal_reduced _) (intake := fun none => ?_)).closed s
    rw [State.settleProposal_intake, none]
    exact List.drop_nil
  | object | events | setmask | snapshot =>
    refine h.kept fun q _ nothing => nothing.kept (by simp) fun j => ?_
    rw [State.entry_of_entries (s := s) (by simp)]; exact id

/-- Nothing that concerns a session, an entry, a queue or a hold changes. -/
theorem same (h : SessionsSound s) (frames : ∀ k, t.frame k = s.frame k := by simp)
    (table : t.table = s.table := by simp) (sessions : t.sessions = s.sessions := by simp)
    (intake : t.intake = s.intake := by simp) (posts : t.posts = s.posts := by simp)
    (scheduler : t.scheduler = s.scheduler := by simp) (pins : t.pins.present = s.pins.present := by simp) :
    SessionsSound t :=
  h.kept (fun q _ nothing => nothing.kept (by simp [frames]) (fun i => by
    rw [State.entry_of_entries (s := s) (by rw [table])]; exact id) (by rw [State.session, sessions]; rfl)
    (by rw [table]) (by rw [intake]) (by rw [posts]) scheduler) sessions pins

theorem loadPause (h : SessionsSound s) (q : Half) : SessionsSound (s.loadPause q) := by
  unfold State.loadPause
  split
  · exact h
  · split
    · split
      · exact takeWork h.same
      · exact h
    · exact h.same

theorem discardFrame (h : SessionsSound s) (k : Handle) (c : LinkCounter) : SessionsSound (s.discardFrame k c) :=
  h.kept fun _ _ nothing => nothing.reduced (s.discardFrame_reduced k c)

theorem endFrame (h : SessionsSound s) (k : Handle) (e : EndOutcome) : SessionsSound (s.endFrame k e) := by
  unfold State.endFrame
  dsimp only
  split
  · exact h.discardFrame k _
  · exact h.discardFrame k _
  · split
    · exact h.discardFrame k _
    · split
      · exact h.discardFrame k _
      · split
        · exact h.discardFrame k _
        · split
          · exact (h.loadPause _).discardFrame k _
          · exact h.kept fun q offline nothing => nothing.settleFrame offline k

theorem moveUp (h : SessionsSound s) : SessionsSound s.moveUp := by
  unfold State.moveUp
  exact takeWork (h.same)

/-- The move to DOWN reports to stations in session only. -/
theorem moveDown (h : SessionsSound s) : SessionsSound s.moveDown := by
  refine h.kept fun q offline nothing => nothing.reduced s.moveDown_reduced (posts := ?_)
  have unposted : (s.takeDown.cutReception.posts.get q).queue = [] := by simp [nothing.posts]
  have same : s.moveDown.posts = s.takeDown.cutReception.loseTransmission.posts := by simp [State.moveDown]
  rw [same, State.loseTransmission]
  split
  · simp
  · next p k e sends =>
    have ended : (((s.takeDown.cutReception.reportEnd p k .linkLost).countLink .linkLost 1).endTransmission
        p k).posts = (s.takeDown.cutReception.reportEnd p k .linkLost).posts := by simp
    rw [ended, State.reportEnd_unposted unposted]
    simp
  · simp

theorem sendEnded (h : SessionsSound s) (k : Handle) : SessionsSound (s.sendEnded p k) := by
  refine h.kept fun q offline nothing => nothing.reduced (s.sendEnded_reduced p k) (posts := ?_)
  have unposted : ((s.countSent p k).posts.get q).queue = [] := by simp [nothing.posts]
  have same : (s.sendEnded p k).posts = ((s.countSent p k).reportEnd p k .sent).posts := by
    simp [State.sendEnded]
  rw [same, State.reportEnd_unposted unposted]
  simp

theorem followInputs (h : SessionsSound s) : SessionsSound s.followInputs := by
  unfold State.followInputs
  split
  · exact h.moveUp
  · exact h.moveDown
  · exact h

theorem compareInputs (h : SessionsSound s) : SessionsSound s.compareInputs := by
  unfold State.compareInputs
  split
  · exact h.moveUp
  · exact h

theorem dropForSpeed (h : SessionsSound s) : SessionsSound s.dropForSpeed := by
  unfold State.dropForSpeed
  split
  · exact h
  · exact moveDown h.same

theorem requestSlot (h : SessionsSound s) : SessionsSound s.requestSlot := by
  cases found : lowestFree s.store.frames with
  | none =>
    have skipped : s.requestSlot = (s.countLink .noSlot 1).setReceiver .skipping := by
      rw [State.requestSlot, found]
    rw [skipped]
    exact h.same
  | some k =>
    refine h.kept fun q _ nothing => nothing.kept (fun j held => ?_) fun j => ?_
    · rw [(State.requestSlot_granted found).1] at held
      split at held
      · exact absurd held (by cases q <;> decide)
      · exact held
    · rw [State.entry_of_entries (s := s) (by simp)]; exact id

theorem storeArrival (h : SessionsSound s) (k : Handle) (c : Byte) :
    SessionsSound ((s.checkArrival c).storeArrival k c) := by
  refine h.kept fun q _ nothing => nothing.kept (fun j => ?_) fun j => ?_
  · obtain ⟨others, ⟨-, -, -, holds⟩, -⟩ := ((s.checkArrival c).storeArrival_arrival k c).body
    by_cases e : j = k
    · subst e; rw [holds]; simp
    · rw [others j e]; simp
  · rw [State.entry_of_entries (s := s) (by simp)]; exact id

end SessionsSound

theorem nothingHeld_reset (p : Station) : NothingHeld State.reset p where
  accept := by cases p <;> rfl
  intakeMode := by cases p <;> rfl
  draft := by cases p <;> rfl
  entries i owned := by
    have free : State.reset.entry i = Entry.free := Table.get_const _ i
    rw [free] at owned
    cases owned
  intake := by cases p <;> rfl
  posts := by cases p <;> rfl
  holds k := by
    have free : State.reset.frame k = Frame.free := Table.get_const _ k
    rw [free]
    exact Holds.none_heldBy p
  deficit := by cases p <;> rfl
  credited := by cases p <;> rfl

theorem sessionsSound_eventsKeep : EventsKeep SessionsSound where
  quiet _ _ _ h := h.same
  port _ _ _ h _ := h.same
  effect _ _ _ _ _ h e _ _ _ := (SessionsSound.effect h e).same
  rise s p v h _ _ :=
    (h.kept fun _ _ nothing => nothing.reduced ((s.dropReadHold_reduced p).to_frames (by simp))).closed s
  lastByte s p v r h _ _ := by
    refine (h.kept fun q _ nothing => nothing.reduced ((State.releaseRead_reduced _ p r).of_frames (by simp))
      (intake := fun none => ?_)).closed s
    unfold State.releaseRead
    split
    · have shorter := State.removeEntry_length (s.setPort p v) p r.handle q
      rw [(State.setPort_keeps _ _ _).2.2.2.2.2.2.1, none] at shorter
      exact List.length_eq_zero_iff.mp (Nat.le_zero.mp shorter)
    · simpa using none
  presentFall p s h _ := by
    refine (h.torn (by simp) (fun q nothing => nothing.kept (by simp) fun j => ?_) fun q other => ?_).closed _
    · rw [State.entry_of_entries (s := s) (by simp)]; exact id
    · simp [State.setPresent, Per.get_set_ne _ _ other]
  present p s level h stays := by
    have inSession := State.inSession_of_sessions (s := s) (t := s.setPresent p level) (by simp)
    refine ⟨fun q offline => (h.offline q (by rwa [inSession] at offline)).kept (by simp) (fun _ => id),
      h.accepted, fun q online => ?_⟩
    have before := h.present q online
    simp only [State.setPresent, Per.get_set]
    split
    · next e => subst e; exact stays online
    · exact before
  deviceReset _ _ ran _ := by
    cases ran
    refine ⟨fun q _ => ?_, fun q r accepts => ?_, fun q online => ?_⟩
    · exact (nothingHeld_reset q).kept (fun _ => id) (fun _ => id) rfl rfl rfl rfl rfl
    · have none : State.reset.accepts q r = false := by cases q <;> cases r <;> rfl
      exact absurd (none.symm.trans accepts) nofun
    · have none : State.reset.inSession q = false := by cases q <;> rfl
      exact absurd (none.symm.trans online) nofun
  phyInputChange _ _ s h := (SessionsSound.followInputs h.same).closed s
  speedChange level s h := by
    have moved : SessionsSound { s with pins := { s.pins with speed100 := level } } := h.same
    exact moved.dropForSpeed.closed s
  linkInputCompare _ h := SessionsSound.compareInputs h.same
  frameStart _ _ h _ _ := h.requestSlot
  byteArrival b s k h _ := (h.storeArrival k b).closed s
  frameEnd e s k h _ := (h.endFrame k e).closed s
  skipped _ h _ := h.same
  transmissionComplete s p k t h _ := by
    have reached : SessionsSound (s.reach t) := h.same
    exact ((reached.sendEnded k).closed s).takeWork
  flowControlComplete _ _ _ h _ := SessionsSound.takeWork h.same
  pauseTimerExpiry _ _ h _ := SessionsSound.takeWork h.same
  refreshTimerExpiry _ _ _ _ h _ _ := SessionsSound.takeWork h.same
  holdLimitExpiry p s t h _ := by
    refine (h.kept fun q _ nothing => nothing.reduced ((State.expireQueue_reduced _ p).of_frames (by simp))
      (intake := fun none => ?_)).closed s
    rw [State.expireQueue_intake, Per.get_set]
    split
    · next e => subst e; simp [none]
    · simpa using none
  proposalExpiry _ _ h _ := h.same

/-- Settles O56: only stations in session are given anything, and a session's end takes it all back. -/
theorem stepKeepsSessionsSound : Obligations.StepKeepsSessionsSound := EventsKeep.step sessionsSound_eventsKeep

end Sys2Proof.Machine
end

section
/-! The step: the queue and the events that are due (logs 2 and 3); and what every command answers (log 7). -/

namespace Sys2Proof.Machine

/-- Settles O1: the step matches on the queue's front. -/
theorem stepTakesTheFrontCommand : Obligations.StepTakesTheFrontCommand := fun _ _ _ => rfl

/-! ### The events that are due -/

theorem mem_dueAt {now : Nat} {instant : Option Nat} {event c : Instr} :
    c ∈ dueAt now instant event ↔ c = event ∧ ∃ t, instant = some t ∧ t ≤ now := by
  unfold dueAt
  cases instant with
  | none => simp
  | some t => by_cases due : t ≤ now <;> simp [due]

theorem State.mem_dueTransmission {s : State} {c : Instr} : c ∈ s.dueTransmission ↔
    (c = .transmissionComplete ∧ ∃ p h t, s.mac.tx = .station p h t ∧ t ≤ s.clock.now) ∨
      (c = .flowControlComplete ∧ ∃ q t, s.mac.tx = .flow q t ∧ t ≤ s.clock.now) := by
  unfold State.dueTransmission
  cases tx : s.mac.tx with
  | idle => simp
  | station p h e => simp [mem_dueAt]
  | flow q e => simp [mem_dueAt]

/-- The instant of a station's hold-limit timer: that of its front entry, while there is a limit and an entry. -/
theorem State.holdDeadline_eq_some_iff {s : State} {p : Station} {t : Nat} : s.holdDeadline p = some t ↔
    ∃ e more, s.intake.get p = e :: more ∧ s.partition.installed.holdLimit ≠ 0 ∧
      e.admitted + s.partition.installed.holdLimit.toNat * 100000 = t := by
  unfold State.holdDeadline
  by_cases unlimited : s.partition.installed.holdLimit = 0
  · simp [unlimited]
  · cases queue : s.intake.get p with
    | nil => simp
    | cons e more => simp [IntakeEntry.expiry, unitsPerMs]

/-- Each event of the hub's own is due when the timer it belongs to has reached its instant. -/
theorem State.mem_dueEvents {s : State} {c : Instr} : c ∈ s.dueEvents ↔
    (c = .linkInputCompare ∧ s.mac.comparePending = true) ∨
    (c = .transmissionComplete ∧ ∃ p h t, s.mac.tx = .station p h t ∧ t ≤ s.clock.now) ∨
    (c = .flowControlComplete ∧ ∃ q t, s.mac.tx = .flow q t ∧ t ≤ s.clock.now) ∨
    (c = .pauseTimerExpiry ∧ ∃ t, s.mac.pauseUntil = some t ∧ t ≤ s.clock.now) ∨
    (c = .refreshTimerExpiry ∧ ∃ t, s.mac.gen.refreshAt = some t ∧ t ≤ s.clock.now) ∨
    (∃ p e more, c = .holdLimitExpiry p ∧ s.intake.get p = e :: more ∧
      s.partition.installed.holdLimit ≠ 0 ∧
      e.admitted + s.partition.installed.holdLimit.toNat * 100000 ≤ s.clock.now) ∨
    (c = .proposalExpiry ∧ ∃ o, s.partition.proposal = some o ∧ o.expiry ≤ s.clock.now) := by
  have compare : c ∈ (if s.mac.comparePending then [Instr.linkInputCompare] else []) ↔
      c = .linkInputCompare ∧ s.mac.comparePending = true := by
    cases s.mac.comparePending <;> simp
  have held : c ∈ Station.all.flatMap
        (fun p => dueAt s.clock.now (s.holdDeadline p) (.holdLimitExpiry p)) ↔
      ∃ p e more, c = .holdLimitExpiry p ∧ s.intake.get p = e :: more ∧
        s.partition.installed.holdLimit ≠ 0 ∧
        e.admitted + s.partition.installed.holdLimit.toNat * 100000 ≤ s.clock.now := by
    simp only [List.mem_flatMap, mem_dueAt, Station.mem_all, true_and, State.holdDeadline_eq_some_iff]
    constructor
    · rintro ⟨p, rfl, t, ⟨e, more, queue, limited, rfl⟩, due⟩
      exact ⟨p, e, more, rfl, queue, limited, due⟩
    · rintro ⟨p, e, more, rfl, queue, limited, due⟩
      exact ⟨p, rfl, _, ⟨e, more, queue, limited, rfl⟩, due⟩
  have proposed : c ∈ dueAt s.clock.now (s.partition.proposal.map fun o => o.expiry) .proposalExpiry ↔
      c = .proposalExpiry ∧ ∃ o, s.partition.proposal = some o ∧ o.expiry ≤ s.clock.now := by
    simp [mem_dueAt]
  unfold State.dueEvents
  rw [List.mem_append, List.mem_append, List.mem_append, List.mem_append, List.mem_append, compare,
    State.mem_dueTransmission, mem_dueAt, mem_dueAt, held, proposed]
  simp only [or_assoc]

theorem step_of_due {s t : State} {c : Instr} (empty : s.pending = []) (due : s.nextDue = some (c, t)) :
    step s = exec c t := by
  simp only [step, empty, due]

theorem step_of_undue {s : State} (empty : s.pending = []) (undue : s.nextDue = none) : step s = .next s.tick := by
  simp only [step, empty, undue]

/-- Settles O2: each event is due when the timer it belongs to is, and the step takes one of those that are. -/
theorem stepOnAnEmptyQueue : Obligations.StepOnAnEmptyQueue := by
  intro s empty
  refine ⟨fun c => State.mem_dueEvents, fun none => step_of_undue empty (by rw [State.nextDue, none]),
    fun c one => step_of_due empty (by rw [State.nextDue, one]), fun many => ?_⟩
  match due : s.dueEvents, many with
  | a :: b :: more, _ =>
    have bound : s.dueIndex ((b :: more).length + 1) < (a :: b :: more).length := Nat.mod_lt _ (by simp)
    refine ⟨(a :: b :: more).getD (s.dueIndex ((b :: more).length + 1)) a, ?_,
      step_of_due empty (by rw [State.nextDue, due])⟩
    rw [List.getD_eq_getElem _ _ bound]
    exact List.getElem_mem bound

/-! ### Every command answers -/

/-- A well-formed row that is no station command answers a next state. -/
theorem exec_event {i : Instr} (s : State) (event : commandInput i = none) (wf : i.wf = true) :
    ∃ t, exec i s = .next t := by
  cases i <;> simp only [commandInput, reduceCtorEq] at event
  case undefinedCommand p code => exact ⟨_, if_pos wf⟩
  all_goals
    simp only [exec, execSelectFall, execSelectRise, execLastRequestedByte, execPresentFall, execPresentRise,
      execDeviceReset, execPhyInputChange, execSpeedChange, execLinkInputCompare, execFrameStart,
      execByteArrival, execFrameEnd, execTransmissionComplete, execFlowControlComplete,
      execPauseTimerExpiry, execRefreshTimerExpiry, execHoldLimitExpiry, execProposalExpiry,
      execCompletedByte]
  case selectFall => exact ⟨_, rfl⟩
  case selectRise => exact ⟨_, rfl⟩
  case presentFall => exact ⟨_, rfl⟩
  case presentRise => exact ⟨_, rfl⟩
  case deviceReset => exact ⟨_, rfl⟩
  all_goals split
  all_goals exact ⟨_, rfl⟩

/-- Settles O3: no meaning of a well-formed row faults or refuses. -/
theorem everyCommandAnswers : Obligations.EveryCommandAnswers := by
  intro i s
  refine ⟨fun wf => ?_, fun ill => ?_⟩
  · cases command : commandInput i with
    | some c => exact ⟨_, exec_command s command wf⟩
    | none => exact exec_event s command wf
  · have unformed : ¬ i.wf = true := by simp [ill]
    cases i <;> simp only [Instr.wf, reduceCtorEq] at ill
    case undefinedCommand => exact if_neg unformed
    case draft => exact if_neg unformed
    case txwrite => exact if_neg unformed

end Sys2Proof.Machine
end

section
/-! The station port: device reset, select, undefined commands, and completed bytes (Chapter 10). -/

namespace Sys2Proof.Machine

/-! ### Device reset -/

/-- The reset values of every block, under any clock, pins and queue and with ports that keep nothing. -/
theorem resetValues_of_ports (clock : Clock) (pins : Pins) (pending : List Instr) {ports : Per Port}
    (cleared : ∀ p, { ports.get p with phase := .idle } = Port.reset) :
    ResetValues { State.reset with clock := clock, pins := pins, pending := pending, ports := ports } where
  freeList := by simp only [State.reset, FrameStore.reset]
  frames h := Table.get_const _ h
  entries i := Table.get_const _ i
  drafts p := Per.get_const _ p
  generation := rfl
  sequence := rfl
  sessions p := Per.get_const _ p
  intake p := Per.get_const _ p
  posts p := Per.get_const _ p
  pointer := rfl
  deficit p := Per.get_const _ p
  credited p := Per.get_const _ p
  link := rfl
  comparison := rfl
  receiver := rfl
  transmitter := rfl
  pause := rfl
  generator := rfl
  shares p := Per.get_const _ p
  figures := ⟨rfl, rfl, rfl, rfl, rfl⟩
  recordNumber := rfl
  proposal := rfl
  counter := rfl
  lastOutcome := rfl
  attention p := Per.get_const _ p
  linkCounters c := by cases c <;> rfl
  stationCounters p c := by cases p <;> cases c <;> rfl
  ports p := by
    have same := cleared p
    simp only [Port.reset, Port.mk.injEq] at same
    obtain ⟨-, -, code, input, result, response, reading, lastResult, lastCommand, -⟩ := same
    exact ⟨lastResult, lastCommand, code, input, result, response, reading⟩

/-- Settles O4: every block is the constant of `State.reset`, and a port is its reset but for the phase. -/
theorem deviceResetRestoresEveryBlock : Obligations.DeviceResetRestoresEveryBlock := by
  have cleared : ∀ v : Port, { v.afterReset with phase := .idle } = Port.reset := by
    intro v
    unfold Port.afterReset
    split <;> rfl
  refine ⟨resetValues_of_ports State.reset.clock State.reset.pins [] (ports := State.reset.ports)
    fun p => by rw [show State.reset.ports.get p = Port.reset from Per.get_const _ p]; rfl, rfl, fun p => ?_,
    fun s => ⟨_, rfl, resetValues_of_ports s.clock s.pins s.pending fun p => ?_, fun p => ?_, rfl, rfl, rfl⟩⟩
  · rw [show State.reset.ports.get p = Port.reset from Per.get_const _ p]; rfl
  · rw [Per.get_of]; exact cleared _
  · show ((Per.of fun q => (s.ports.get q).afterReset).get p).phase = _
    rw [Per.get_of, Port.afterReset]
    split <;> rfl

/-! ### Select -/

/-- A byte of six flags below a number of two bits. -/
theorem summaryBits (n : Nat) (small : n < 4) (b5 b4 b3 b2 b1 : Bool) :
    let v := BitVec.ofNat 8 (64 * n + 32 * b5.toNat + 16 * b4.toNat + 8 * b3.toNat + 4 * b2.toNat +
      2 * b1.toNat + 1)
    v.getLsbD 0 = true ∧ v.getLsbD 1 = b1 ∧ v.getLsbD 2 = b2 ∧ v.getLsbD 3 = b3 ∧ v.getLsbD 4 = b4 ∧
      v.getLsbD 5 = b5 ∧ v.toNat / 64 = n := by
  have all : ∀ m : Fin 4, ∀ b5 b4 b3 b2 b1 : Bool,
      let v := BitVec.ofNat 8 (64 * m.val + 32 * b5.toNat + 16 * b4.toNat + 8 * b3.toNat + 4 * b2.toNat +
        2 * b1.toNat + 1)
      v.getLsbD 0 = true ∧ v.getLsbD 1 = b1 ∧ v.getLsbD 2 = b2 ∧ v.getLsbD 3 = b3 ∧ v.getLsbD 4 = b4 ∧
        v.getLsbD 5 = b5 ∧ v.toNat / 64 = m.val := by decide
  exact all ⟨n, small⟩ b5 b4 b3 b2 b1

theorem State.awaits_iff {s : State} {p : Station} : s.awaits p = true ↔
    ∃ o, s.partition.proposal = some o ∧ inSet o.required p = true ∧ inSet o.endorsed p = false := by
  unfold State.awaits
  cases s.partition.proposal <;> simp

theorem State.fallSelect_of_idle {s : State} {p : Station} (idle : (s.ports.get p).phase = .idle) :
    s.fallSelect p = s.setPort p ((s.ports.get p).start (s.summaryByte p)) := if_pos idle

theorem State.fallSelect_of_not_idle {s : State} {p : Station} (busy : (s.ports.get p).phase ≠ .idle) :
    s.fallSelect p = s := if_neg busy

/-- Settles O5: a fall in IDLE captures the summary byte in a cleared port. -/
theorem selectFallCapturesTheSummary : Obligations.SelectFallCapturesTheSummary := by
  intro p s
  refine ⟨fun idle => ⟨(s.ports.get p).start (s.summaryByte p), congrArg _ (State.fallSelect_of_idle idle), rfl,
    rfl, rfl, rfl, rfl, rfl, rfl, rfl, ?_⟩, fun busy => congrArg _ (State.fallSelect_of_not_idle busy)⟩
  have small : (sessionByte (s.session p).state).toNat < 4 := by
    cases (s.session p).state <;> decide
  obtain ⟨one, result, awaited, completed, queued, attn, session⟩ := summaryBits _ small
    (s.attention.get p).attn (!(s.intake.get p).isEmpty) (!(s.posts.get p).completions.isEmpty) (s.awaits p)
    ((s.ports.get p).lastResult != .code .ok)
  refine ⟨one, result, ?_, ?_, ?_, attn, ?_⟩
  · exact awaited ▸ State.awaits_iff
  · exact completed ▸ by simp
  · exact queued ▸ by simp
  · refine session.trans ?_
    cases (s.session p).state <;> rfl

/-- A rise before the command-taken point abandons the transaction. -/
theorem State.riseSelect_untaken {s : State} {p : Station}
    (untaken : (s.ports.get p).phase = .command ∨ (s.ports.get p).phase = .input) :
    s.riseSelect p = s.setPort p (s.ports.get p).recordAbandoned.finish := by
  unfold State.riseSelect
  rcases untaken with phase | phase <;> rw [phase]

/-- The phases of a port after the command-taken point of a transaction (Table 10-1). -/
def Phase.taken (v : Phase) : Prop := v = .turnaround ∨ v = .result ∨ v = .output ∨ v = .discard

/-- A rise after the command-taken point ends the transaction and removes the read hold. -/
theorem State.riseSelect_taken {s : State} {p : Station} (taken : (s.ports.get p).phase.taken) :
    s.riseSelect p = State.closeEvent s ((s.dropReadHold p).setPort p (s.ports.get p).finish) := by
  unfold State.riseSelect
  rcases taken with phase | phase | phase | phase <;> rw [phase]

theorem State.dropReadHold_none {s : State} {p : Station} (quiet : (s.ports.get p).reading = none) :
    s.dropReadHold p = s := by
  rw [State.dropReadHold, quiet]

theorem State.dropReadHold_some {s : State} {p : Station} {r : ReadStream}
    (reads : (s.ports.get p).reading = some r) :
    s.dropReadHold p = s.modifyFrame r.handle fun f =>
      f.removeHold fun x => { x with read := eraseStation x.read p } := by
  rw [State.dropReadHold, reads]

/-- An event that takes holds off one frame, down to what is left, and does nothing else to the store; `c` is the
hub before the event, but for what the event itself did at the Link MAC. -/
theorem State.closeEvent_oneFrame_after {b s c : State} {h : Handle} {left : Holds}
    (held : (b.frame h).holds.isEmpty = false)
    (store : s.store = (b.setFrame h { b.frame h with holds := left }).store) (mac : s.mac = c.mac)
    (list : c.store.freeList = b.store.freeList) (installed : c.partition.installed = b.partition.installed) :
    ReleasedOrKept b (State.closeEvent b s) h left ∧ OnlyFrame b (State.closeEvent b s) h ∧
      (State.closeEvent b s).store.mem = b.store.mem ∧ GeneratorAnswers c (State.closeEvent b s) := by
  have frames : ∀ k, s.frame k = (b.setFrame h { b.frame h with holds := left }).frame k := fun k =>
    State.frame_of_frames (congrArg FrameStore.frames store) k
  obtain ⟨released, only⟩ := State.closeEvent_releasedOrKept (s := s) (left := left) held
    (by simp [frames]) (fun k other => by simp [frames, other]) (by simp [store])
  exact ⟨released, only, by simp [store], State.closeEvent_answers mac list installed⟩

theorem State.closeEvent_oneFrame {b s : State} {h : Handle} {left : Holds}
    (held : (b.frame h).holds.isEmpty = false)
    (store : s.store = (b.setFrame h { b.frame h with holds := left }).store) (mac : s.mac = b.mac) :
    ReleasedOrKept b (State.closeEvent b s) h left ∧ OnlyFrame b (State.closeEvent b s) h ∧
      (State.closeEvent b s).store.mem = b.store.mem ∧ GeneratorAnswers b (State.closeEvent b s) :=
  State.closeEvent_oneFrame_after held store mac rfl rfl

/-- Settles O6: before the taken point a rise abandons, after it it finishes, with the read hold of an RXREAD. -/
theorem selectRiseEndsTheTransaction : Obligations.SelectRiseEndsTheTransaction := by
  intro p s
  refine ⟨fun idle => ?_, fun untaken => ?_, fun taken quiet => ?_, fun r taken reads held => ?_⟩
  · show Host.Outcome.next (s.riseSelect p) = _
    rw [State.riseSelect, idle]
  · exact ⟨_, congrArg Host.Outcome.next (State.riseSelect_untaken untaken), rfl, rfl, rfl⟩
  · refine ⟨(s.ports.get p).finish, congrArg Host.Outcome.next ?_, rfl, rfl, rfl⟩
    rw [State.riseSelect_taken taken, State.dropReadHold_none quiet]
    exact State.closeEvent_same rfl rfl
  · refine ⟨_, congrArg Host.Outcome.next ((State.riseSelect_taken taken).trans
      (by rw [State.dropReadHold_some reads])), ?_⟩
    obtain ⟨released, only, mem, mac⟩ := State.closeEvent_oneFrame
      (b := s) (left := { (s.frame r.handle).holds with read := eraseStation (s.frame r.handle).holds.read p })
      (s := (s.modifyFrame r.handle fun f => f.removeHold fun x =>
        { x with read := eraseStation x.read p }).setPort p (s.ports.get p).finish)
      (Holds.nonempty_of_read held) rfl rfl
    refine ⟨?_, ?_, ?_, ?_, ?_, released, only, mem, mac, ?_⟩
    · simp [Port.finish]
    · simp [Port.finish]
    · simp [Port.finish]
    · simp [Port.finish]
    · intro q other
      simp [Per.get_set_ne _ _ other]
    · rw [State.closeEvent_eq]; rfl

/-! ### Undefined commands -/

theorem Command.mem_list (c : Command) : c ∈ Command.list := by cases c <;> decide

theorem Command.ofCode_code (c : Command) : Command.ofCode c.code = some c := by cases c <;> rfl

theorem Command.ofCode_eq_none_iff {b : Byte} : Command.ofCode b = none ↔ ∀ c : Command, c.code ≠ b := by
  simp [Command.ofCode, List.find?_eq_none, Command.mem_list]

theorem exec_undefinedCommand {p : Station} {code : Byte} {s : State} (undefined : ∀ c : Command, c.code ≠ code) :
    exec (.undefinedCommand p code) s = .next ((if (s.ports.get p).phase = .command then s
      else (s.riseSelect p).fallSelect p).takeUndefined p code) :=
  if_pos (by simp [Instr.wf, Command.ofCode_eq_none_iff.mpr undefined])

/-! ### Completed bytes -/

@[simp] theorem State.setPort_setPort (s : State) (p : Station) (v w : Port) :
    (s.setPort p v).setPort p w = s.setPort p w := by
  simp [State.setPort]

theorem exec_completedByte_command {p : Station} {b : Byte} {s : State}
    (phase : (s.ports.get p).phase = .command) : exec (.completedByte p b) s = .next (s.receiveCommand p b) := by
  simp only [exec, execCompletedByte, phase]

theorem exec_completedByte_input {p : Station} {b : Byte} {s : State}
    (phase : (s.ports.get p).phase = .input) : exec (.completedByte p b) s = .next (s.receiveInput p b) := by
  simp only [exec, execCompletedByte, phase]

theorem exec_completedByte_result {p : Station} {b : Byte} {s : State}
    (phase : (s.ports.get p).phase = .result) :
    exec (.completedByte p b) s = .next (s.setPort p (s.ports.get p).sendResult) := by
  simp only [exec, execCompletedByte, phase]

theorem exec_completedByte_output {p : Station} {b : Byte} {s : State}
    (phase : (s.ports.get p).phase = .output) : exec (.completedByte p b) s = .next (s.sendOutput p) := by
  simp only [exec, execCompletedByte, phase]

theorem exec_completedByte_discard {p : Station} {b : Byte} {s : State}
    (phase : (s.ports.get p).phase = .discard) :
    exec (.completedByte p b) s = .next (s.setPort p ((s.ports.get p).shift .discard 0)) := by
  simp only [exec, execCompletedByte, phase]

/-- Settles O7: the port of an undefined code has a result and nothing to shift out after it. -/
theorem undefinedCommandIsBadarg : Obligations.UndefinedCommandIsBadarg := by
  intro p code s undefined command
  refine ⟨(s.ports.get p).undefined code, ?_, rfl, rfl, rfl, rfl, rfl, fun first second =>
    ⟨((s.ports.get p).undefined code).sendResult, ?_, rfl, rfl, rfl, rfl, ?_⟩⟩
  · rw [exec_undefinedCommand undefined, if_pos command]; rfl
  · show exec _ (s.setPort p _) = .next (s.setPort p _)
    rw [exec_completedByte_result (by simp [Port.undefined])]
    simp
  · show exec _ (s.setPort p _) = .next (s.setPort p _)
    rw [exec_completedByte_discard (by simp [Port.undefined, Port.sendResult, Port.hasOutput, Port.shift])]
    simp [Port.undefined, Port.sendResult, Port.hasOutput, Port.shift]

/-- The input bytes of a well-formed row are a whole input of its command, and none of their proper beginnings
is. -/
theorem commandInput_complete {i : Instr} {p : Station} {c : Command} {input : List Byte}
    (row : commandInput i = some (p, c, input)) (wf : i.wf = true) :
    c.inputComplete input = true ∧ ∀ k < input.length, c.inputComplete (input.take k) = false := by
  suffices carried : Laws.Carried.Statement i from carried wf p c input row
  cases i <;> simp only [commandInput, reduceCtorEq] at row
  case draft p contents => exact Laws.Carried.draft p contents
  case txwrite p handle offset data => exact Laws.Carried.txwrite p handle offset data
  all_goals exact Laws.Carried.of_fixed _ rfl (fun _ => rfl) rfl

/-- A well-formed row on a port that can carry it is the command-taken point of its command. -/
theorem exec_carried {i : Instr} {p : Station} {c : Command} {input : List Byte} {s : State}
    (row : commandInput i = some (p, c, input)) (wf : i.wf = true) (carries : Carries s p c input) :
    exec i s = .next (s.takeCommand p c input (effectOf c p input)) := by
  rw [exec_command s row wf, State.command_carried carries]

/-- Input bytes that are a whole input of a row take the command, whatever byte is shifted out. -/
theorem State.receive_row {i : Instr} {p : Station} {c : Command} {input : List Byte} {s : State}
    (row : commandInput i = some (p, c, input)) (wf : i.wf = true) (carries : Carries s p c input) (b : Byte) :
    .next (s.receive p c input b) = exec i s := by
  rw [exec_carried row wf carries, State.receive, if_pos (commandInput_complete row wf).1]

theorem State.receive_more {p : Station} {c : Command} {input : List Byte} {s : State} {b : Byte}
    (more : c.inputComplete input = false) :
    s.receive p c input b = s.setPort p ((s.ports.get p).await c.code input b) := by
  rw [State.receive, if_neg (by simp [more])]

theorem State.receiveCommand_code (s : State) (p : Station) (c : Command) :
    s.receiveCommand p c.code = s.receive p c [] (s.ports.get p).summary := by
  rw [State.receiveCommand, Command.ofCode_code]

theorem State.receiveCommand_undefined {s : State} {p : Station} {b : Byte} (undefined : ∀ c : Command, c.code ≠ b) :
    s.receiveCommand p b = s.takeUndefined p b := by
  rw [State.receiveCommand, Command.ofCode_eq_none_iff.mpr undefined]

theorem State.receiveInput_code {s : State} {p : Station} {c : Command} (code : (s.ports.get p).code = some c.code)
    (b : Byte) : s.receiveInput p b = s.receive p c ((s.ports.get p).input ++ [b]) 0 := by
  rw [State.receiveInput, code, Option.bind_some, Command.ofCode_code]

theorem Port.streaming_output {v : Port} {r : ReadStream} (output : v.phase = .output)
    (reads : v.reading = some r) (more : r.sent < r.count) : v.streaming = some r := by
  simp [Port.streaming, output, reads, more]

/-- Settles O11: one phase after another. -/
theorem completedBytesByPhase : Obligations.CompletedBytesByPhase := by
  intro p b s
  refine ⟨fun idle => ?_, fun command => ⟨fun undefined => ?_, fun c code => ⟨fun i row wf => ?_, fun more => ?_⟩⟩,
    fun c input code => ⟨fun i row wf => ?_, fun more => ?_⟩, fun turnaround => ?_, fun r result shown => ?_,
    fun d rest output quiet response => ?_, fun r output reads more => ?_, fun r output reads last => ?_,
    fun discard => ?_⟩
  · simp only [exec, execCompletedByte, idle]
  · rw [exec_completedByte_command command, State.receiveCommand_undefined undefined,
      exec_undefinedCommand undefined, if_pos command]
  · subst code
    rw [exec_completedByte_command command, State.receiveCommand_code]
    exact State.receive_row row wf (.inl command) _
  · subst code
    rw [exec_completedByte_command command, State.receiveCommand_code, State.receive_more more]
    rfl
  · rw [exec_completedByte_input input, State.receiveInput_code code]
    exact State.receive_row row wf (.inr ⟨input, code, List.prefix_append _ _⟩) _
  · rw [exec_completedByte_input input, State.receiveInput_code code, State.receive_more more]
    simp [State.setPort, Port.await, input, code]
  · simp only [exec, execCompletedByte, turnaround]
    rfl
  · rw [exec_completedByte_result result, Port.sendResult, shown]
    cases response : (s.ports.get p).response <;> cases reads : (s.ports.get p).reading <;>
      simp [Port.hasOutput, Port.shift, State.setPort, response, reads]
  · have still : (s.ports.get p).streaming = none := by simp [Port.streaming, output, quiet]
    rw [exec_completedByte_output output, State.sendOutput, still]
    cases rest <;> simp [Port.sendResponse, Port.shift, State.setPort, response]
  · rw [exec_completedByte_output output, State.sendOutput, Port.streaming_output output reads (by omega)]
    simp only [State.shiftRead, if_neg (Nat.not_le.mpr more)]
    rfl
  · have reading := Port.streaming_output output reads (by omega)
    rw [exec_completedByte_output output, State.sendOutput, reading]
    simp only [State.shiftRead, if_pos last.ge, exec, execLastRequestedByte, reading]
  · rw [exec_completedByte_discard discard]
    simp [Port.shift, State.setPort, discard]

/-! ### Refusals, and what a row stands for -/

/-- A command answered other than OK, by its session check or by its effect, leaves the hub and answers zeros. -/
theorem checked_refused {c : Command} {p : Station} {input : List Byte} {s : State}
    (refused : (checked c p (effectOf c p input) s).2.result ≠ .ok) :
    (checked c p (effectOf c p input) s).1 = s ∧
      ∀ b ∈ (checked c p (effectOf c p input) s).2.response, b = 0 := by
  unfold checked at refused ⊢
  split at refused
  · next allowed =>
    rw [if_pos allowed]
    exact (effectOf_spec c p input s).2 refused
  · next barred =>
    rw [if_neg barred]
    exact ⟨rfl, fun b h => (List.mem_replicate.mp h).2⟩

/-- Settles O8: the session check refuses, and no effect that is answered other than OK changes anything. -/
theorem refusalsChangeNothing : Obligations.RefusalsChangeNothing := by
  refine ⟨fun i p c input s row wf carries barred => ?_, fun i p c input s t row carries ran refused => ?_⟩
  · exact exec_noSession row wf carries (by simpa [permitted_iff] using barred)
  · have wf : i.wf = true := by
      by_contra ill
      rw [(everyCommandAnswers i s).2 (by simpa using ill)] at ran
      cases ran
    rw [exec_carried row wf carries] at ran
    cases ran
    obtain ⟨same, zero⟩ := checked_refused (c := c) (p := p) (input := input) (s := s)
      fun ok => refused (by simp [State.takeCommand, Port.taken, ok])
    refine ⟨?_, fun q other => ?_, ?_⟩
    · rw [State.takeCommand, same]; rfl
    · simp [State.takeCommand, same, Per.get_set_ne _ _ other]
    · simpa [State.takeCommand, Port.taken] using zero

/-- Settles O9: the row opens its transaction by the two port events. -/
theorem aRowStandsForItsTransaction : Obligations.ARowStandsForItsTransaction := by
  refine ⟨fun i p c input s row barred => ⟨_, _, rfl, rfl, ?_, ?_⟩, fun p code s other => ⟨_, _, rfl, rfl, ?_, ?_⟩⟩
  · exact .inl (State.fallSelect_phase (s.riseSelect_phase p))
  · by_cases wf : i.wf = true
    · have opened : Carries ((s.riseSelect p).fallSelect p) p c input :=
        .inl (State.fallSelect_phase (s.riseSelect_phase p))
      rw [exec_carried row wf opened, exec_command s row wf, State.command, State.openFor,
        if_neg (mt carries_iff.mp barred)]
    · have ill : i.wf = false := by simpa using wf
      rw [(everyCommandAnswers i s).2 ill, (everyCommandAnswers i _).2 ill]
  · exact State.fallSelect_phase (s.riseSelect_phase p)
  · have opened := State.fallSelect_phase (s.riseSelect_phase p)
    simp only [exec, execUndefinedCommand, if_neg other, if_pos opened]

end Sys2Proof.Machine
end

section
/-! The commands that read the hub or start something small: STATUS, GETRESULT, LINKSTATUS, PREAD, JOIN, RESUME,
SETACCEPT, TREAD, RXPEEK, RXREAD, EVENTS and SNAPSHOT. -/

namespace Sys2Proof.Machine

/-- A row on a port that carries it, in a session state that permits it, answers what its effect answers and makes
its effect, if the effect is the one given. -/
theorem exec_answers {i : Instr} {p : Station} {c : Command} {input : List Byte} {s : State} (u : State) (r : Reply)
    (row : commandInput i = some (p, c, input)) (wf : i.wf = true) (carries : Carries s p c input)
    (allowed : (s.session p).state ∈ sessionsFor c) (effect : effectOf c p input s = (u, r)) :
    ∃ t, exec i s = .next t ∧ Answered s t p c r.result r.response ∧ t = { u with ports := t.ports } := by
  obtain ⟨t, ran, answered, -, same⟩ :=
    exec_answered row wf carries (by rw [permitted_iff]; exact decide_eq_true allowed) effect
  exact ⟨t, ran, answered, same⟩

theorem Answered.congr {s t : State} {p : Station} {c : Command} {r : Result} {a b : List Byte}
    (h : Answered s t p c r a) (e : a = b) : Answered s t p c r b := e ▸ h

theorem State.freeRecords_eq (s : State) :
    s.freeRecords = ((List.finRange 128).filter fun h => (s.frame h).state == .free).length := by
  rw [State.freeRecords, Table.rows_eq_map, List.filter_map, List.length_map]
  rfl

theorem unitsLeft_eq (endsAt now size : Nat) : unitsLeft endsAt now size =
    max 1 ((endsAt - now + (size - 1)) / size) := rfl

/-- Settles O12: the four reads answer the bytes of the hub as it is. -/
theorem wholeHubReads : Obligations.WholeHubReads := by
  intro p s
  have everywhere : ∀ v : SessionState, v ∈ [SessionState.offline, .suspended, .active] := by
    intro v; cases v <;> simp
  refine ⟨fun carries => exec_answers s _ rfl rfl carries (everywhere _) rfl, fun carries => ?_, fun carries => ?_,
    fun carries => ?_⟩
  · obtain ⟨t, ran, answered, same⟩ := exec_answers (i := .getresult p) s _ rfl rfl carries (everywhere _) rfl
    have taken := exec_carried (i := .getresult p) rfl rfl carries
    have allowed : permitted .getresult (s.session p).state = true := rfl
    refine ⟨t, ran, answered, ?_, ?_, same⟩ <;> cases taken.symm.trans ran <;>
      simp [State.takeCommand, checked, allowed, Port.taken, effectOf, getresultEffect]
  · obtain ⟨t, ran, answered, same⟩ := exec_answers (i := .linkstatus p) s _ rfl rfl carries (everywhere _) rfl
    refine ⟨t, ran, answered.congr ?_, same⟩
    show s.linkBytes = _
    rw [State.linkBytes, State.freeRecords_eq, State.pauseLeft]
    cases s.mac.link with
    | down => cases s.mac.tx <;> cases s.mac.pauseUntil <;> rfl
    | up speed => cases speed <;> cases s.mac.tx <;> cases s.mac.pauseUntil <;> rfl
  · obtain ⟨t, ran, answered, same⟩ := exec_answers (i := .pread p) s _ rfl rfl carries (everywhere _) rfl
    refine ⟨t, ran, answered.congr ?_, same⟩
    show s.preadBytes = _
    rw [State.preadBytes, List.append_assoc _ [_]]
    refine congrArg₂ HAppend.hAppend (congrArg (HAppend.hAppend _) ?_) ?_
    · cases s.partition.proposal <;> rfl
    · cases s.partition.lastOutcome with
      | none => rfl
      | some outcome => cases outcome <;> rfl

/-! ### Sessions -/

/-- Settles O13: JOIN starts a session in every block while PRESENT is high. -/
theorem joinStartsASession : Obligations.JoinStartsASession := by
  intro p s carries offline
  have allowed : (s.session p).state ∈ sessionsFor .join := by simp [offline, sessionsFor]
  refine ⟨fun present => ?_, fun absent => ?_⟩
  · obtain ⟨t, ran, answered, same⟩ := exec_answers (i := .join p) (s.startSession p) _ rfl rfl carries allowed
      (if_pos present)
    refine ⟨t, _, ran, answered, rfl, same.trans ?_⟩
    have masked : (s.attention.get p).setMask 0 = { flags := (s.attention.get p).flags, mask := 0, attn := false } := by
      simp [Attention.setMask, Attention.update]
    rw [← masked]
    rfl
  · exact exec_answers s _ rfl rfl carries allowed (if_neg (by simp [absent]))

/-! ### Input bytes -/

theorem setOfByte_of_lt {b : Byte} (small : b.toNat < 16) : setOfByte b = some (b.setWidth 4) := if_pos small

theorem setOfByte_of_le {b : Byte} (large : 16 ≤ b.toNat) : setOfByte b = none := if_neg (Nat.not_lt.mpr large)

theorem intakeOfByte_intakeByte (v : DefaultIntake) : intakeOfByte (intakeByte v) = some v := by cases v <;> rfl

theorem intakeOfByte_eq_none {b : Byte} (undefined : ∀ v : DefaultIntake, b ≠ intakeByte v) : intakeOfByte b = none := by
  have none : b ≠ 0 := undefined .none
  have broadcast : b ≠ 1 := undefined .broadcast
  have all : b ≠ 2 := undefined .all
  unfold intakeOfByte
  split
  · bv_omega
  · bv_omega
  · bv_omega
  · rfl

theorem indexOf_eq_some {b : Byte} {i : EntryIndex} (named : b.toNat = i.val) : indexOf b = some i := by
  have bound : b.toNat < 64 := named ▸ i.isLt
  rw [indexOf, dif_pos bound]
  exact congrArg some (Fin.ext named)

theorem indexOf_eq_none {b : Byte} (large : 64 ≤ b.toNat) : indexOf b = none := dif_neg (Nat.not_lt.mpr large)

/-! ### RESUME and SETACCEPT -/

/-- Settles O17: RESUME has no check; SETACCEPT checks its two bytes and its own station. -/
theorem resumeAndSetaccept : Obligations.ResumeAndSetaccept := by
  intro p s
  refine ⟨fun carries suspended => ?_, fun set intake carries active => ?_⟩
  · exact exec_answers (i := .resume p) _ _ rfl rfl carries (by simp [suspended, sessionsFor]) rfl
  have allowed : (s.session p).state ∈ sessionsFor .setaccept := by simp [active, sessionsFor]
  refine ⟨fun v defined small others => ?_, fun bad => ?_⟩
  · subst defined
    obtain ⟨t, ran, answered, same⟩ := exec_answers (i := .setaccept p set (intakeByte v))
      (s.setSession p { s.session p with accept := s.onlineOf (set.setWidth 4), defaultIntake := v })
      (answer [setByte (s.onlineOf (set.setWidth 4))]) rfl rfl carries allowed
      (by simp [effectOf, setacceptEffect, inByte, intakeOfByte_intakeByte, setOfByte_of_lt small, others])
    exact ⟨t, s.onlineOf (set.setWidth 4), ran, answered, fun q => by simp [State.onlineOf], same⟩
  · refine exec_answers s (refuse .setaccept .badArg) rfl rfl carries allowed ?_
    show setacceptEffect p set intake s = _
    unfold setacceptEffect
    rcases bad with undefined | large | itself
    · rw [intakeOfByte_eq_none undefined]
    · rw [setOfByte_of_le large]
      cases intakeOfByte intake <;> rfl
    · cases intakeOfByte intake with
      | none => rfl
      | some v => cases small : setOfByte set with
        | none => rfl
        | some named =>
          have same : named = set.setWidth 4 := by
            unfold setOfByte at small
            split at small <;> cases small
            rfl
          simp [same, itself]

/-! ### TREAD -/

/-- Settles O22: an index outside the table is refused, and any other entry is described. -/
theorem treadReturnsAnEntry : Obligations.TreadReturnsAnEntry := by
  intro p index s carries active
  have allowed : (s.session p).state ∈ sessionsFor .tread := by simp [active, sessionsFor]
  refine ⟨fun large => ?_, fun i named => ?_⟩
  · refine exec_answers s (refuse .tread .badArg) rfl rfl carries allowed ?_
    simp [effectOf, treadEffect, inByte, indexOf_eq_none large]
  · obtain ⟨t, ran, answered, same⟩ := exec_answers (i := .tread p index) s
      (answer ((s.entry i).treadBytes s.table.generation)) rfl rfl carries allowed
      (by simp [effectOf, treadEffect, inByte, indexOf_eq_some named])
    refine ⟨t, ran, answered.congr ?_, same⟩
    show (s.entry i).treadBytes s.table.generation = _
    unfold Entry.treadBytes Entry.contentsBytes
    cases (s.entry i).state <;> cases (s.entry i).owner <;> cases (s.entry i).contents <;>
      simp [EntryState.byte, ownerByte, wordBytes, halfBytes] <;> rfl

/-! ### RXPEEK and RXREAD -/

/-- Settles O33: the count, then the queue, decide the answer. -/
theorem rxpeekDescribesTheQueue : Obligations.RxpeekDescribesTheQueue := by
  intro p count s carries active
  have allowed : (s.session p).state ∈ sessionsFor .rxpeek := by simp [active, sessionsFor]
  refine ⟨fun outside => ?_, fun positive most empty => ?_, fun positive most waits => ?_⟩
  · exact exec_answers s (refuse .rxpeek .badArg) rfl rfl carries allowed (if_pos outside)
  · have outside : ¬ (count.toNat = 0 ∨ 32 < count.toNat) := by omega
    refine exec_answers s (refuse .rxpeek .empty) rfl rfl carries allowed ?_
    exact (if_neg outside).trans (if_pos empty)
  · have outside : ¬ (count.toNat = 0 ∨ 32 < count.toNat) := by omega
    obtain ⟨t, ran, answered, same⟩ := exec_answers (i := .rxpeek p count) s _ rfl rfl carries allowed
      ((if_neg outside).trans (if_neg waits))
    refine ⟨t, _, ran, answered, same, ?_⟩
    refine List.flatMap_congr fun e _ => ?_
    cases result : (s.frame e.handle).result <;> simp only [State.descriptor, result] <;> rfl

theorem State.queuedHandle_eq_none {s : State} {p : Station} {b : Byte}
    (unqueued : ∀ e ∈ s.intake.get p, e.handle.val ≠ b.toNat) : s.queuedHandle p b = none := by
  unfold State.queuedHandle
  cases named : handleOf b with
  | none => rfl
  | some h =>
    have absent : findIntake (s.intake.get p) h = none := by
      rw [findIntake, List.find?_eq_none]
      intro e queued same
      exact unqueued e queued ((congrArg Fin.val (of_decide_eq_true same)).trans (handleOf_eq_some_iff.mp named).symm)
    simp [absent]

theorem State.queuedHandle_eq_some {s : State} {p : Station} {b : Byte} {h : Handle} (named : b.toNat = h.val)
    (queued : ∃ e ∈ s.intake.get p, e.handle = h) : s.queuedHandle p b = some h := by
  have found : (findIntake (s.intake.get p) h).isSome = true := by
    rw [findIntake, List.find?_isSome]
    exact queued.imp fun e ⟨stands, same⟩ => ⟨stands, decide_eq_true same⟩
  rw [State.queuedHandle, handleOf_eq_some_iff.mpr named]
  exact if_pos found

theorem State.addReadHold_eq {s : State} {h : Handle} (p : Station) (stored : (s.frame h).state ≠ .free) :
    s.addReadHold p h = s.setFrame h { s.frame h with
      holds := { (s.frame h).holds with read := insertStation (s.frame h).holds.read p } } :=
  congrArg (s.setFrame h) (if_neg stored)

theorem readInRange_iff {offset count : Half} {release : Byte} {length : Nat} :
    readInRange offset count release length = true ↔ offset.toNat ≤ 1513 ∧ 1 ≤ count.toNat ∧
      count.toNat ≤ 1514 ∧ release.toNat ≤ 1 ∧ offset.toNat + count.toNat ≤ length := decide_eq_true_iff

theorem rxread_effect (p : Station) (handle : Byte) (offset count : Half) (release : Byte) :
    effectOf .rxread p ([handle] ++ halfBytes offset ++ halfBytes count ++ [release]) =
      rxreadEffect p handle offset count release := by
  have offsetField : inHalf ([handle] ++ halfBytes offset ++ halfBytes count ++ [release]) 1 = offset := by
    simpa using inHalf_append [handle] (halfBytes count ++ [release]) offset
  have countField : inHalf ([handle] ++ halfBytes offset ++ halfBytes count ++ [release]) 3 = count := by
    simpa using inHalf_append ([handle] ++ halfBytes offset) [release] count
  have releaseField : inByte ([handle] ++ halfBytes offset ++ halfBytes count ++ [release]) 5 = release := by
    simpa using inByte_append ([handle] ++ halfBytes offset ++ halfBytes count) [] release
  simp only [effectOf, offsetField, countField, releaseField]
  rfl

/-- Settles O34: the handle, then the ranges, decide the answer. -/
theorem rxreadStartsAStream : Obligations.RxreadStartsAStream := by
  intro p handle offset count release s carries active
  have allowed : (s.session p).state ∈ sessionsFor .rxread := by simp [active, sessionsFor]
  refine ⟨fun unqueued => ?_, fun h named queued => ⟨fun outside => ?_, fun low positive most flag fits settled => ?_⟩⟩
  · refine exec_answers s (refuse .rxread .badHandle) rfl rfl carries allowed ?_
    rw [rxread_effect, rxreadEffect, State.queuedHandle_eq_none unqueued]
  · refine exec_answers s (refuse .rxread .badArg) rfl rfl carries allowed ?_
    rw [rxread_effect, rxreadEffect, State.queuedHandle_eq_some named queued]
    exact if_neg (by rw [readInRange_iff]; omega)
  · have effect : effectOf .rxread p ([handle] ++ halfBytes offset ++ halfBytes count ++ [release]) s =
        (s.addReadHold p h, { result := .ok, response := [], reading := some { handle := h, offset := offset.toNat, count := count.toNat, release := release == 1, sent := 0 } }) := by
      rw [rxread_effect, rxreadEffect, State.queuedHandle_eq_some named queued]
      exact if_pos (readInRange_iff.mpr ⟨low, positive, most, flag, fits⟩)
    obtain ⟨t, ran, answered, reading, same⟩ := exec_answered (i := .rxread p handle offset count release) rfl rfl carries
      (by rw [permitted_iff]; exact decide_eq_true allowed) effect
    exact ⟨t, ran, answered, reading, by rw [same, State.addReadHold_eq p (by simp [settled])]; rfl⟩

/-! ### EVENTS and SNAPSHOT -/

/-- Settles O48: EVENTS clears the flags it answers, SNAPSHOT the counters of the station if the option says so. -/
theorem eventsAndSnapshot : Obligations.EventsAndSnapshot := by
  intro p s
  refine ⟨fun carries online => ?_, fun option carries awake => ?_⟩
  · have allowed : (s.session p).state ∈ sessionsFor .events := by
      cases state : (s.session p).state <;> simp_all [sessionsFor]
    obtain ⟨t, ran, answered, same⟩ := exec_answers (i := .events p) _ _ rfl rfl carries allowed rfl
    refine ⟨t, ran, answered, same.trans ?_⟩
    have cleared : (s.attention.get p).clearFlags = { flags := 0, mask := (s.attention.get p).mask, attn := false } := by
      simp [Attention.clearFlags, Attention.update]
    rw [← cleared]
    rfl
  · have allowed : (s.session p).state ∈ sessionsFor .snapshot := by
      cases state : (s.session p).state <;> simp_all [sessionsFor]
    refine ⟨fun large => ?_, fun small => ?_⟩
    · refine exec_answers s (refuse .snapshot .badArg) rfl rfl carries allowed ?_
      show snapshotEffect p option s = _
      unfold snapshotEffect
      split
      · next zero => omega
      · next one => omega
      · rfl
    · by_cases clear : option = 1
      · obtain ⟨t, ran, answered, same⟩ := exec_answers (i := .snapshot p option) _ _ rfl rfl carries allowed
          (show snapshotEffect p option s = (_, _) by subst clear; rfl)
        exact ⟨t, _, ran, answered, rfl, by rw [if_pos clear]; exact same⟩
      · obtain ⟨t, ran, answered, same⟩ := exec_answers (i := .snapshot p option) _ _ rfl rfl carries allowed
          (show snapshotEffect p option s = (_, _) by
            have zero : option = 0 := by bv_omega
            subst zero; rfl)
        exact ⟨t, _, ran, answered, rfl, by rw [if_neg clear]; exact same⟩

end Sys2Proof.Machine
end

section
/-! The table commands: CLAIM, DRAFT, PUBLISH, DISABLE and RETIRE (Chapter 2). -/

namespace Sys2Proof.Machine

/-! ### CLAIM -/

theorem indexOf_any : indexOf 0xFF = none := indexOf_eq_none (by decide)

theorem claim_named {index : Byte} (named : index.toNat < 64 ∨ index = 0xFF) :
    ¬ (index ≠ 0xFF ∧ indexOf index = none) := by
  rintro ⟨other, unnamed⟩
  rcases named with small | any
  · rw [indexOf, dif_pos small] at unnamed
    cases unnamed
  · exact other any

/-- Below the allowance a CLAIM answers what the entry it names allows. -/
theorem claimEffect_refused {p : Station} {index : Byte} {s : State} {r : Result}
    (named : index.toNat < 64 ∨ index = 0xFF)
    (room : s.ownedCount p < (s.share p).allowance.toNat)
    (target : s.claimTarget index = .error r) : claimEffect p index s = (s, refuse .claim r) := by
  rw [claimEffect, if_neg (claim_named named), if_neg (Nat.not_le.mpr room), target]

theorem claimEffect_taken {p : Station} {index : Byte} {s : State} {i : EntryIndex}
    (named : index.toNat < 64 ∨ index = 0xFF)
    (room : s.ownedCount p < (s.share p).allowance.toNat)
    (target : s.claimTarget index = .ok i) :
    claimEffect p index s = (s.setEntry i (Entry.claimed p), answer [BitVec.ofNat 8 i.val]) := by
  rw [claimEffect, if_neg (claim_named named), if_neg (Nat.not_le.mpr room), target]

theorem State.claimTarget_of_named {s : State} {index : Byte} {i : EntryIndex} (named : index.toNat = i.val) :
    s.claimTarget index = if (s.entry i).state = .free then .ok i else .error .busy := by
  have one : index ≠ 0xFF := by
    rintro rfl
    have := i.isLt
    simp at named
    omega
  rw [State.claimTarget, if_neg one, indexOf_eq_some named]

theorem State.claimTarget_any_none {s : State} (none : ∀ i, (s.entry i).state ≠ .free) :
    s.claimTarget 0xFF = .error .noRoom := by
  rw [State.claimTarget, if_pos rfl, lowestFreeEntry_eq_none_iff.mpr none]

theorem State.claimTarget_any_lowest {s : State} {i : EntryIndex} (free : (s.entry i).state = .free)
    (lowest : ∀ j < i, (s.entry j).state ≠ .free) : s.claimTarget 0xFF = .ok i := by
  rw [State.claimTarget, if_pos rfl, lowestFreeEntry_eq_some_iff.mpr ⟨free, lowest⟩]

/-- Settles O18: the index, then the allowance, then the entry decide the answer. -/
theorem claimTakesAFreeEntry : Obligations.ClaimTakesAFreeEntry := by
  intro p index s carries active
  have allowed : (s.session p).state ∈ sessionsFor .claim := by simp [active, sessionsFor]
  have small {i : EntryIndex} (named : index.toNat = i.val) : index.toNat < 64 ∨ index = 0xFF :=
    .inl (named ▸ i.isLt)
  refine ⟨fun large other => ?_, fun named full => ?_, fun room => ⟨fun i named taken => ?_, fun any none => ?_,
    fun i free chosen => ?_⟩⟩
  · exact exec_answers s (refuse .claim .badArg) rfl rfl carries allowed (if_pos ⟨other, indexOf_eq_none large⟩)
  · exact exec_answers s (refuse .claim .denied) rfl rfl carries allowed
      ((if_neg (claim_named named)).trans (if_pos full))
  · exact exec_answers s (refuse .claim .busy) rfl rfl carries allowed
      (claimEffect_refused (small named) room ((State.claimTarget_of_named named).trans (if_neg taken)))
  · subst any
    exact exec_answers s (refuse .claim .noRoom) rfl rfl carries allowed
      (claimEffect_refused (.inr rfl) room (State.claimTarget_any_none none))
  · have target : s.claimTarget index = .ok i := by
      rcases chosen with named | ⟨rfl, lowest⟩
      · rw [State.claimTarget_of_named named, if_pos free]
      · exact State.claimTarget_any_lowest free lowest
    exact exec_answers (s.setEntry i (Entry.claimed p)) (answer [BitVec.ofNat 8 i.val]) rfl rfl carries allowed
      (claimEffect_taken (chosen.elim small fun any => .inr any.1) room target)

/-! ### DRAFT -/

theorem setOfByte_eq_none_iff {b : Byte} : setOfByte b = none ↔ 15 < b.toNat := by
  unfold setOfByte
  split <;> simp <;> omega

theorem scopeOfByte_eq_none_iff {b : Byte} : scopeOfByte b = none ↔ 2 < b.toNat := by
  revert b
  decide

theorem actionOfByte_eq_none_iff {b : Byte} : actionOfByte b = none ↔ 2 < b.toNat := by
  revert b
  decide

theorem addrFieldOfByte_eq_none_iff {b : Byte} : addrFieldOfByte b = none ↔ 1 < b.toNat := by
  revert b
  decide

theorem originSetOfBytes_eq_none_iff {data : List Byte} : originSetOfBytes data = none ↔
    (inByte data 3).getLsbD 2 = true ∧ 15 < (inByte data 4).toNat := by
  unfold originSetOfBytes
  split
  · next present => simp [present, setOfByte_eq_none_iff]
  · next absent => exact iff_of_false (by simp) fun h => absent h.1

theorem kindOfBytes_eq_none_iff {data : List Byte} : kindOfBytes data = none ↔
    4 < (inByte data 6).toNat ∨ (inByte data 6 = 0 ∧ 1 < (inByte data 7).toNat) ∨
      (inByte data 6 = 3 ∧ (inByte data 9 = 0 ∨ 32 < (inByte data 9).toNat)) := by
  have byte {n : Nat} (small : n < 256) (e : (inByte data 6).toNat = n) : inByte data 6 = BitVec.ofNat 8 n :=
    BitVec.eq_of_toNat_eq (by rw [e, BitVec.toNat_ofNat, Nat.mod_eq_of_lt small])
  unfold kindOfBytes
  split
  · next address =>
    rw [byte (by decide) address, ← addrFieldOfByte_eq_none_iff]
    cases addrFieldOfByte (inByte data 7) <;> simp
  · next group => rw [byte (by decide) group]; simp
  · next ethertype => rw [byte (by decide) ethertype]; simp
  · next pattern =>
    rw [byte (by decide) pattern]
    have zero : inByte data 9 = 0 ↔ (inByte data 9).toNat = 0 := BitVec.toNat_inj.symm
    simp only [zero]
    split <;> simp <;> omega
  · next all => rw [byte (by decide) all]; simp
  · next h0 h1 h2 h3 h4 =>
    have large : 4 < (inByte data 6).toNat := by
      by_contra small
      have : (inByte data 6).toNat ≠ 0 ∧ (inByte data 6).toNat ≠ 1 ∧ (inByte data 6).toNat ≠ 2 ∧
        (inByte data 6).toNat ≠ 3 ∧ (inByte data 6).toNat ≠ 4 := ⟨h0, h1, h2, h3, h4⟩
      omega
    simp [large]

/-- Contents are undefined when one of their fields is, or an options bit that is not defined is set. -/
theorem contentsOfBytes_eq_none_iff {data : List Byte} : contentsOfBytes data = none ↔
    scopeOfByte (inByte data 1) = none ∨ actionOfByte (inByte data 2) = none ∨ originSetOfBytes data = none ∨
      setOfByte (inByte data 5) = none ∨ kindOfBytes data = none ∨ 7 < (inByte data 3).toNat := by
  unfold contentsOfBytes
  cases scopeOfByte (inByte data 1) <;> cases actionOfByte (inByte data 2) <;> cases originSetOfBytes data <;>
    cases setOfByte (inByte data 5) <;> cases kindOfBytes data <;> simp
  omega

/-- Settles O19: the form of the contents decides the answer. -/
theorem draftReplacesTheDraft : Obligations.DraftReplacesTheDraft := by
  intro p data s complete carries active
  have allowed : (s.session p).state ∈ sessionsFor .draft := by simp [active, sessionsFor]
  refine ⟨fun c formed => ?_, fun malformed => ?_, ?_⟩
  · refine exec_answers (s.setDraft p (some c)) (answer []) rfl complete carries allowed ?_
    simp [effectOf, draftEffect, formed]
  · refine exec_answers s (refuse .draft .badArg) rfl complete carries allowed ?_
    simp [effectOf, draftEffect, malformed]
  · rw [contentsOfBytes_eq_none_iff, scopeOfByte_eq_none_iff, actionOfByte_eq_none_iff, originSetOfBytes_eq_none_iff,
      setOfByte_eq_none_iff, kindOfBytes_eq_none_iff]
    tauto

/-! ### Owned entries -/

theorem State.ownedEntry_of_outside {s : State} {p : Station} {index : Byte} (large : 64 ≤ index.toNat) :
    s.ownedEntry p index = .error .badArg := by
  rw [State.ownedEntry, indexOf_eq_none large]

theorem State.ownedEntry_of_named {s : State} {p : Station} {index : Byte} {i : EntryIndex}
    (named : index.toNat = i.val) : s.ownedEntry p index =
      if (s.entry i).state ≠ .free ∧ (s.entry i).owner = some p then .ok i else .error .denied := by
  rw [State.ownedEntry, indexOf_eq_some named]

theorem State.ownedEntry_of_barred {s : State} {p : Station} {index : Byte} {i : EntryIndex}
    (named : index.toNat = i.val) (barred : (s.entry i).state = .free ∨ (s.entry i).owner ≠ some p) :
    s.ownedEntry p index = .error .denied := by
  rw [State.ownedEntry_of_named named, if_neg (by tauto)]

theorem State.ownedEntry_of_owned {s : State} {p : Station} {index : Byte} {i : EntryIndex}
    (named : index.toNat = i.val) (used : (s.entry i).state ≠ .free) (owned : (s.entry i).owner = some p) :
    s.ownedEntry p index = .ok i := by
  rw [State.ownedEntry_of_named named, if_pos ⟨used, owned⟩]

theorem Raised.congr {s t : State} {f : Flag} {who who' : Station → Prop} (h : Raised s t f who)
    (same : ∀ q, who' q ↔ who q) : Raised s t f who' := by
  have e : who' = who := funext fun q => propext (same q)
  exact e ▸ h

theorem State.raiseFlagAt_eq (s : State) (f : Flag) (v : StationSet) :
    s.raiseFlagAt f v = { s with attention := (s.raiseFlagAt f v).attention } := by
  apply State.ext <;> simp

theorem State.inSet_tableEventTargets {s : State} {owner q : Station} {targets : StationSet} :
    inSet (s.tableEventTargets owner targets) q = true ↔
      q ≠ owner ∧ s.accepts q owner = true ∧ inSet targets q = true := by
  simp [State.tableEventTargets]
  tauto

/-! ### PUBLISH -/

theorem Contents.publishable_iff {c : Contents} : c.publishable = true ↔
    (c.action = .contain → c.scope = .localPosts) ∧
    (∀ offset template mask, c.kind = .pattern offset template mask →
      offset.toNat ≤ 1513 ∧ offset.toNat + template.length ≤ 1514) ∧
    (c.originSet ≠ none → c.scope ≠ .arrivals) := by
  have span : kindPublishable c.kind = true ↔ ∀ offset template mask, c.kind = .pattern offset template mask →
      offset.toNat ≤ 1513 ∧ offset.toNat + template.length ≤ 1514 := by
    cases c.kind with
    | pattern offset template mask =>
      rw [kindPublishable, decide_eq_true_iff]
      exact ⟨fun fits _ _ _ e => by cases e; exact fits, fun fits => fits _ _ _ rfl⟩
    | _ => simp [kindPublishable]
  have contains : (c.action != .contain || c.scope == .localPosts) = true ↔
      (c.action = .contain → c.scope = .localPosts) := by
    cases c.action <;> simp
  have origins : (c.originSet.isNone || c.scope != .arrivals) = true ↔ (c.originSet ≠ none → c.scope ≠ .arrivals) := by
    cases c.originSet <;> simp
  rw [Contents.publishable, Bool.and_eq_true, Bool.and_eq_true, contains, span, origins, and_assoc]

/-- Settles O20: the index, the owner and the draft decide the answer. -/
theorem publishActivatesAnEntry : Obligations.PublishActivatesAnEntry := by
  intro p index s carries active
  have allowed : (s.session p).state ∈ sessionsFor .publish := by simp [active, sessionsFor]
  refine ⟨fun large => ?_, fun i named => ⟨fun barred => ?_, fun used owned => ⟨fun c drafted contains spans origins => ?_,
    fun unfit => ?_⟩⟩⟩
  · refine exec_answers s (refuse .publish .badArg) rfl rfl carries allowed ?_
    show publishEffect p index s = _
    rw [publishEffect, State.ownedEntry_of_outside large]
  · refine exec_answers s (refuse .publish .denied) rfl rfl carries allowed ?_
    show publishEffect p index s = _
    rw [publishEffect, State.ownedEntry_of_barred named barred]
  · have valid : s.validDraft p = some c := by
      rw [State.validDraft, Option.filter_eq_some_iff]
      exact ⟨drafted, Contents.publishable_iff.mpr ⟨contains, spans, origins⟩⟩
    obtain ⟨t, ran, answered, same⟩ := exec_answers (i := .publish p index) (s.publish p i c)
      (answer (s.publish p i c).generationBytes) rfl rfl carries allowed (by
        show publishEffect p index s = _
        rw [publishEffect, State.ownedEntry_of_owned named used owned]
        simp only [valid])
    have published := State.raiseFlagAt_raised
      (s.setEntry i { state := .active, owner := some p, contents := some c, hits := 0 }).raiseGeneration
      .table (s.tableEventTargets p (c.targets ||| (s.entry i).activeTargets))
    refine ⟨t, ran, answered.congr ?_, ?_, ?_⟩
    · simp [State.publish, State.generationBytes, answer, halfBytes]
    · rw [same, State.publish, State.raiseFlagAt_eq]
      rfl
    · refine ((published.of_eq (s := s) rfl rfl).to_eq (by rw [same]; rfl)).congr fun q => ?_
      rw [State.inSet_tableEventTargets, inSet_or, Bool.or_eq_true]
  · refine exec_answers s (refuse .publish .badArg) rfl rfl carries allowed ?_
    show publishEffect p index s = _
    have invalid : s.validDraft p = none := by
      rw [State.validDraft, Option.filter_eq_none_iff]
      rcases unfit with undrafted | ⟨c, drafted, unfit⟩
      · simp [undrafted]
      · intro c' drafted' fit
        obtain ⟨contains, spans, origins⟩ := Contents.publishable_iff.mp fit
        cases drafted.symm.trans drafted'
        rcases unfit with ⟨contain, scope⟩ | ⟨offset, template, mask, kind, outside⟩ | ⟨origin, scope⟩
        · exact scope (contains contain)
        · have := spans offset template mask kind
          omega
        · exact origins origin scope
    rw [publishEffect, State.ownedEntry_of_owned named used owned]
    simp only [invalid]

/-! ### DISABLE and RETIRE -/

/-- Settles O21: the index, the owner and the state of the entry decide the answer. -/
theorem disableAndRetire : Obligations.DisableAndRetire := by
  intro p index s active
  have disables : (s.session p).state ∈ sessionsFor .disable := by simp [active, sessionsFor]
  have retires : (s.session p).state ∈ sessionsFor .retire := by simp [active, sessionsFor]
  refine ⟨fun carries => ⟨fun large => ?_, fun i named => ⟨fun barred => ?_, fun idle owned => ?_, fun live owned => ?_⟩⟩,
    fun carries => ⟨fun large => ?_, fun i named => ⟨fun barred => ?_, fun idle owned => ?_, fun live owned => ?_⟩⟩⟩
  · refine exec_answers s (refuse .disable .badArg) rfl rfl carries disables ?_
    show disableEffect p index s = _
    rw [disableEffect, State.ownedEntry_of_outside large]
  · refine exec_answers s (refuse .disable .denied) rfl rfl carries disables ?_
    show disableEffect p index s = _
    rw [disableEffect, State.ownedEntry_of_barred named barred]
  · refine exec_answers s (answer s.generationBytes) rfl rfl carries disables ?_
    have still : s.disable i = s := if_neg (by simp [idle])
    show disableEffect p index s = _
    rw [disableEffect, State.ownedEntry_of_owned named (by simp [idle]) owned]
    simp only [still]
  · have disabled : s.disable i = (s.setEntry i { s.entry i with state := .idle }).raiseGeneration := if_pos live
    refine exec_answers (s.setEntry i { s.entry i with state := .idle }).raiseGeneration
      (answer (halfBytes (s.table.generation + 1))) rfl rfl carries disables ?_
    show disableEffect p index s = _
    rw [disableEffect, State.ownedEntry_of_owned named (by simp [live]) owned]
    simp only [disabled]
    rfl
  · refine exec_answers s (refuse .retire .badArg) rfl rfl carries retires ?_
    show retireEffect p index s = _
    rw [retireEffect, State.ownedEntry_of_outside large]
  · refine exec_answers s (refuse .retire .denied) rfl rfl carries retires ?_
    show retireEffect p index s = _
    rw [retireEffect, State.ownedEntry_of_barred named barred]
  · have retired : s.retire p i = s.setEntry i Entry.free := if_neg (by simp [idle])
    refine exec_answers (s.setEntry i Entry.free) (answer s.generationBytes) rfl rfl carries retires ?_
    show retireEffect p index s = _
    rw [retireEffect, State.ownedEntry_of_owned named (by simp [idle]) owned]
    simp only [retired]
    rfl
  · have retired : s.retire p i = (s.setEntry i Entry.free).raiseGeneration.raiseFlagAt .table
        (s.tableEventTargets p (s.entry i).activeTargets) := if_pos live
    obtain ⟨t, ran, answered, same⟩ := exec_answers (i := .retire p index) (s.retire p i)
      (answer (s.retire p i).generationBytes) rfl rfl carries retires (by
        show retireEffect p index s = _
        rw [retireEffect, State.ownedEntry_of_owned named (by simp [live]) owned])
    have raised := State.raiseFlagAt_raised (s.setEntry i Entry.free).raiseGeneration .table
      (s.tableEventTargets p (s.entry i).activeTargets)
    refine ⟨t, ran, answered.congr ?_, ?_, ?_⟩
    · simp [retired, State.generationBytes, answer, halfBytes]
    · rw [same, retired, State.raiseFlagAt_eq]
      rfl
    · refine ((raised.of_eq (s := s) rfl rfl).to_eq (by rw [same, retired])).congr fun q => ?_
      rw [State.inSet_tableEventTargets]

end Sys2Proof.Machine
end

section
/-! The values that travel as bytes, and steering: what a kind matches, the evaluation order, the reach of an entry
and what the actions do (Chapters 2 and 3, Tables 11-6 and 11-10). -/

namespace Sys2Proof.Machine

/-! ### Contents and records as bytes -/

theorem inSpan_append (front mid back : List Byte) : inSpan (front ++ mid ++ back) front.length mid.length = mid := by
  rw [inSpan, List.append_assoc, List.drop_left, List.take_left]

theorem ofNat_beNat_beBytes {w : Nat} (n : Nat) (v : BitVec w) (wide : 2 ^ w = 256 ^ n) :
    BitVec.ofNat w (beNat (beBytes n v.toNat)) = v := by
  rw [beNat_beBytes, ← wide, Nat.mod_eq_of_lt v.isLt, BitVec.ofNat_toNat, BitVec.setWidth_eq]

theorem setOfByte_setByte (v : StationSet) : setOfByte (setByte v) = some v := by
  revert v; decide

theorem scopeOfByte_byte (v : Scope) : scopeOfByte v.byte = some v := by cases v <;> rfl

theorem actionOfByte_byte (v : Action) : actionOfByte v.byte = some v := by cases v <;> rfl

theorem addrFieldOfByte_byte (v : AddrField) : addrFieldOfByte v.byte = some v := by cases v <;> rfl

/-- The options byte shows the three indications it is made of, and no other bit. -/
theorem Contents.options_bits (c : Contents) : c.options.getLsbD 0 = c.terminal ∧ c.options.getLsbD 1 = c.wake ∧
    c.options.getLsbD 2 = c.originSet.isSome ∧ c.options.toNat < 8 := by
  unfold Contents.options
  cases c.terminal <;> cases c.wake <;> cases c.originSet.isSome <;> decide

theorem originSetOfBytes_bytes (c : Contents) : originSetOfBytes c.bytes = some c.originSet := by
  have bit : (inByte c.bytes 3).getLsbD 2 = c.originSet.isSome := c.options_bits.2.2.1
  have byte : inByte c.bytes 4 = setByte (c.originSet.getD 0) := rfl
  rw [originSetOfBytes, bit, byte]
  cases c.originSet with
  | none => rfl
  | some v => simp [setOfByte_setByte]

/-- A byte of contents after the six that come before the kind. -/
theorem Contents.inByte_bytes (c : Contents) (k : Nat) : inByte c.bytes (6 + k) = inByte c.kind.bytes k := by
  rw [Nat.add_comm]; rfl

theorem Contents.inSpan_bytes (c : Contents) (k n : Nat) : inSpan c.bytes (6 + k) n = inSpan c.kind.bytes k n := by
  rw [Nat.add_comm]; rfl

theorem inSpan_of_append {l front mid back : List Byte} {k n : Nat} (e : l = front ++ mid ++ back)
    (at_ : front.length = k) (size : mid.length = n) : inSpan l k n = mid := by
  subst e at_ size
  exact inSpan_append front mid back

theorem inHalf_of_append {l front back : List Byte} {k : Nat} {v : Half} (e : l = front ++ halfBytes v ++ back)
    (at_ : front.length = k) : inHalf l k = v := by
  subst e at_
  exact inHalf_append front back v

/-- The bytes of a pattern: the kind, the offset, the length, the template and the mask. -/
theorem MatchKind.bytes_pattern (offset : Half) (template mask : List Byte) :
    (MatchKind.pattern offset template mask).bytes =
      [3] ++ halfBytes offset ++ ([BitVec.ofNat 8 template.length] ++ template ++ mask) := by
  simp [MatchKind.bytes]

/-- The byte that gives the length of a pattern in range. -/
theorem Contents.patternLength {c : Contents} {offset : Half} {template mask : List Byte}
    (kind : c.kind = .pattern offset template mask) (short : template.length ≤ 32) :
    (inByte c.bytes 9).toNat = template.length := by
  have byte : inByte c.bytes 9 = BitVec.ofNat 8 template.length := by rw [c.inByte_bytes 3, kind]; rfl
  rw [byte, BitVec.toNat_ofNat]
  omega

/-- The kind that follows six bytes comes back whole, if a pattern and its mask keep their range. -/
theorem kindOfBytes_bytes (c : Contents) (ranged : c.inRange = true) : kindOfBytes c.bytes = some c.kind := by
  unfold Contents.inRange at ranged
  have kindByte := c.inByte_bytes 0
  cases kind : c.kind with
  | address field value =>
    have tag : inByte c.bytes 6 = 0 := by rw [kindByte, kind]; rfl
    have fieldByte : inByte c.bytes 7 = field.byte := by rw [c.inByte_bytes 1, kind]; rfl
    have number : inSpan c.bytes 8 6 = beBytes 6 value.toNat := by
      rw [c.inSpan_bytes 2, kind]; rfl
    rw [kindOfBytes, tag, fieldByte, number, addrFieldOfByte_byte, ofNat_beNat_beBytes 6 value (by decide)]
    rfl
  | group buckets =>
    have tag : inByte c.bytes 6 = 1 := by rw [kindByte, kind]; rfl
    have number : inSpan c.bytes 7 8 = (beBytes 8 buckets.toNat).reverse := by
      rw [c.inSpan_bytes 1, kind]; rfl
    rw [kindOfBytes, tag, number, List.reverse_reverse, ofNat_beNat_beBytes 8 buckets (by decide)]
    rfl
  | ethertype value =>
    have tag : inByte c.bytes 6 = 2 := by rw [kindByte, kind]; rfl
    have number : inHalf c.bytes 7 = value := by
      rw [inHalf, c.inSpan_bytes 1, kind]
      exact ofNat_beNat_beBytes 2 value (by decide)
    rw [kindOfBytes, tag, number]
    rfl
  | pattern offset template mask =>
    simp only [kind, decide_eq_true_iff] at ranged
    obtain ⟨some_, short, same⟩ := ranged
    have tag : inByte c.bytes 6 = 3 := by rw [kindByte, kind]; rfl
    have length := Contents.patternLength kind short
    have number : inHalf c.bytes 7 = offset := by
      rw [inHalf, c.inSpan_bytes 1, kind]
      exact inHalf_of_append (MatchKind.bytes_pattern offset template mask) rfl
    have first : inSpan c.bytes 10 template.length = template := by
      rw [c.inSpan_bytes 4, kind]
      exact inSpan_of_append (front := [3] ++ halfBytes offset ++ [BitVec.ofNat 8 template.length]) (back := mask)
        (by simp [MatchKind.bytes_pattern]) rfl rfl
    have second : inSpan c.bytes (10 + template.length) template.length = mask := by
      rw [show 10 + template.length = 6 + (4 + template.length) by omega, c.inSpan_bytes, kind]
      exact inSpan_of_append (back := [])
        (front := [3] ++ halfBytes offset ++ [BitVec.ofNat 8 template.length] ++ template)
        (by simp [MatchKind.bytes_pattern]) (by simp; omega) same
    have range : 1 ≤ template.length ∧ template.length ≤ 32 := ⟨some_, short⟩
    rw [kindOfBytes, tag]
    simp only [length, if_pos range, number, first, second]
    rfl
  | all =>
    have tag : inByte c.bytes 6 = 4 := by rw [kindByte, kind]; rfl
    rw [kindOfBytes, tag]
    rfl

theorem contentsOfBytes_bytes (c : Contents) (ranged : c.inRange = true) : contentsOfBytes c.bytes = some c := by
  obtain ⟨terminal, wake, -, defined⟩ := c.options_bits
  have byte3 : inByte c.bytes 3 = c.options := rfl
  have scope : scopeOfByte (inByte c.bytes 1) = some c.scope := scopeOfByte_byte c.scope
  have action : actionOfByte (inByte c.bytes 2) = some c.action := actionOfByte_byte c.action
  have targets : setOfByte (inByte c.bytes 5) = some c.targets := setOfByte_setByte c.targets
  simp only [contentsOfBytes, scope, action, originSetOfBytes_bytes, targets, kindOfBytes_bytes c ranged, byte3,
    terminal, wake, Option.bind_eq_bind, Option.bind_some, if_pos defined]
  rfl

theorem draftLength_bytes (c : Contents) (ranged : c.inRange = true) : draftLength c.bytes = some c.bytes.length := by
  have total : c.bytes.length = 6 + c.kind.bytes.length := by simp [Contents.bytes]; omega
  have tag {n : Nat} (e : (inByte c.kind.bytes 0).toNat = n) : (c.bytes.getD 6 0).toNat = n :=
    (congrArg BitVec.toNat (c.inByte_bytes 0)).trans e
  have nonempty : 0 < c.kind.bytes.length := by cases c.kind <;> simp [MatchKind.bytes]
  rw [draftLength, if_neg (show ¬ c.bytes.length < 7 by omega)]
  cases kind : c.kind with
  | address field value =>
    rw [tag (n := 0) (by rw [kind]; rfl), total, kind]
    simp [MatchKind.bytes]
  | group buckets =>
    rw [tag (n := 1) (by rw [kind]; rfl), total, kind]
    simp [MatchKind.bytes]
  | ethertype value =>
    rw [tag (n := 2) (by rw [kind]; rfl), total, kind]
    simp [MatchKind.bytes]
  | pattern offset template mask =>
    simp only [Contents.inRange, kind, decide_eq_true_iff] at ranged
    obtain ⟨-, short, same⟩ := ranged
    have length : (c.bytes.getD 9 0).toNat = template.length := Contents.patternLength kind short
    rw [kind, MatchKind.bytes_pattern] at total
    simp only [List.length_append, List.length_singleton, halfBytes_length] at total
    rw [tag (n := 3) (by rw [kind]; rfl), length]
    simp only [if_neg (show ¬ c.bytes.length < 10 by omega)]
    exact congrArg some (by omega)
  | all =>
    rw [tag (n := 4) (by rw [kind]; rfl), total, kind]
    simp [MatchKind.bytes]

/-- Settles O23: each field comes back from its own bytes. -/
theorem contentsAndRecordsTravelUnchanged : Obligations.ContentsAndRecordsTravelUnchanged := by
  refine ⟨fun c ranged => ⟨contentsOfBytes_bytes c ranged, ?_⟩, fun r => ⟨recordOfBytes_recordBytes r, ?_⟩⟩
  · simp [Command.inputComplete, Command.inputLength, draftLength_bytes c ranged]
  · simp [recordBytes, shareBytes]

/-! ### What a kind matches -/

theorem beNat_eq_iff {l : List Byte} {n v : Nat} (length : l.length = n) (small : v < 256 ^ n) :
    beNat l = v ↔ l = beBytes n v := by
  constructor
  · rintro rfl
    rw [← length, beBytes_beNat]
  · rintro rfl
    rw [beNat_beBytes, Nat.mod_eq_of_lt small]

@[simp] theorem State.bytesAt_length (s : State) (h : Handle) (o n : Nat) : (s.bytesAt h o n).length = n := by
  simp [State.bytesAt]

/-- A span of a frame reads as a number exactly when it is that number's bytes. -/
theorem State.bytesAt_beNat {s : State} {h : Handle} {o n v : Nat} (small : v < 256 ^ n) :
    (beNat (s.bytesAt h o n) == v) = true ↔ s.bytesAt h o n = beBytes n v := by
  rw [beq_iff_eq, beNat_eq_iff (s.bytesAt_length h o n) small]

/-- The masked comparison of a pattern, place by place (R51). -/
theorem maskedMatch_iff {bytes template mask : List Byte} (spans : bytes.length = template.length)
    (masks : mask.length = template.length) : maskedMatch bytes template mask = true ↔
      ∀ i < template.length, inByte bytes i &&& inByte mask i = inByte template i &&& inByte mask i := by
  induction template generalizing bytes mask with
  | nil => cases bytes <;> simp [maskedMatch]
  | cons t ts ih =>
    match bytes, mask, spans, masks with
    | b :: bs, m :: ms, spans, masks =>
      rw [maskedMatch, Bool.and_eq_true, beq_iff_eq, ih (by simpa using spans) (by simpa using masks)]
      constructor
      · rintro ⟨here, there⟩ i bound
        cases i with
        | zero => exact here
        | succ i => exact there i (by simpa using bound)
      · exact fun all => ⟨all 0 (by simp), fun i bound => all (i + 1) (by simpa using bound)⟩

theorem State.inByte_bytesAt {s : State} {h : Handle} {o n i : Nat} (bound : i < n) :
    inByte (s.bytesAt h o n) i = s.byteAt h (o + i) := by
  simp [inByte, State.bytesAt, List.getD, bound]

/-- Settles O25: a number matches its bytes, and a pattern the bits that its mask names. -/
theorem kindsMatch : Obligations.KindsMatch := by
  intro s h
  refine ⟨fun v => State.bytesAt_beNat v.isLt, fun v => State.bytesAt_beNat v.isLt, fun v => State.bytesAt_beNat v.isLt,
    rfl, fun offset template mask same => ?_⟩
  rw [State.kindMatches, Bool.and_eq_true, decide_eq_true_iff, maskedMatch_iff (s.bytesAt_length h _ _) same]
  refine and_congr_right fun _ => forall₂_congr fun i bound => ?_
  rw [State.inByte_bytesAt bound]

/-! ### Order and reach -/

theorem State.mem_placeEntry {s : State} {i j : EntryIndex} {l : List EntryIndex} :
    j ∈ s.placeEntry i l ↔ j = i ∨ j ∈ l := by
  induction l with
  | nil => simp [State.placeEntry]
  | cons k rest ih =>
    unfold State.placeEntry
    split
    · simp
    · simp only [List.mem_cons, ih]; tauto

/-- Entry `i` comes before entry `j` in the evaluation order (R38). -/
def State.Before (s : State) (i j : EntryIndex) : Prop :=
  s.precedence i < s.precedence j ∨ (s.precedence i = s.precedence j ∧ i < j)

theorem State.Before.trans {s : State} {i j k : EntryIndex} (a : s.Before i j) (b : s.Before j k) : s.Before i k := by
  rcases a with a | ⟨a, a'⟩ <;> rcases b with b | ⟨b, b'⟩
  · exact .inl (a.trans b)
  · exact .inl (b ▸ a)
  · exact .inl (a ▸ b)
  · exact .inr ⟨a.trans b, a'.trans b'⟩

/-- An entry of lower index than all others is put in its place. -/
theorem State.placeEntry_pairwise {s : State} {i : EntryIndex} {l : List EntryIndex} (sorted : l.Pairwise s.Before)
    (lowest : ∀ j ∈ l, i < j) : (s.placeEntry i l).Pairwise s.Before := by
  induction l with
  | nil => simp [State.placeEntry]
  | cons k rest ih =>
    obtain ⟨first, later⟩ := List.pairwise_cons.mp sorted
    unfold State.placeEntry
    split
    · next fits =>
      have before : s.Before i k := fits.lt_or_eq.imp_right fun same => ⟨same, lowest k (by simp)⟩
      refine List.pairwise_cons.mpr ⟨fun j hj => ?_, sorted⟩
      rcases List.mem_cons.mp hj with rfl | hj
      · exact before
      · exact before.trans (first j hj)
    · next after =>
      refine List.pairwise_cons.mpr ⟨fun j hj => ?_, ih later fun j hj => lowest j (by simp [hj])⟩
      rcases State.mem_placeEntry.mp hj with rfl | hj
      · exact .inl (Nat.not_le.mp after)
      · exact first j hj

theorem State.foldr_placeEntry_mem {s : State} {j : EntryIndex} {l : List EntryIndex} :
    j ∈ l.foldr s.placeEntry [] ↔ j ∈ l := by
  induction l with
  | nil => simp
  | cons i rest ih => rw [List.foldr_cons, State.mem_placeEntry, ih, List.mem_cons]

theorem State.foldr_placeEntry_pairwise {s : State} {l : List EntryIndex} (ascending : l.Pairwise (· < ·)) :
    (l.foldr s.placeEntry []).Pairwise s.Before := by
  induction l with
  | nil => simp
  | cons i rest ih =>
    obtain ⟨first, later⟩ := List.pairwise_cons.mp ascending
    exact State.placeEntry_pairwise (ih later) fun j hj => first j (State.foldr_placeEntry_mem.mp hj)

/-- Settles O26: the order is an insertion sort of the ACTIVE entries, from the highest index down. -/
theorem orderAndReach : Obligations.OrderAndReach := by
  refine ⟨fun s => ⟨fun i => ?_, ?_⟩, fun s origin owner targets q => ?_⟩
  · rw [State.evaluationOrder, State.foldr_placeEntry_mem]
    simp
  · exact State.foldr_placeEntry_pairwise ((List.pairwise_lt_finRange 64).filter _)
  · simp only [State.effectiveTargets, inSet_stationsWhere, State.inSession, State.accepts, Bool.and_eq_true,
      bne_iff_ne, ne_eq, Bool.or_eq_true, beq_iff_eq]
    tauto

/-! ### DISCARD and CONTAIN -/

/-- Settles O28: DISCARD takes its targets out, CONTAIN keeps a post off the link. -/
theorem discardAndContainAct : Obligations.DiscardAndContainAct := by
  intro s w i c origin owner
  refine ⟨fun discard => ?_, fun contain => ?_⟩
  · have hit : w.hit s i c origin owner = { w with
        excluded := w.excluded ||| s.effectiveTargets origin owner c.targets,
        delivery := w.delivery &&& ~~~ s.effectiveTargets origin owner c.targets,
        wakeMark := w.wakeMark &&& ~~~ s.effectiveTargets origin owner c.targets,
        matched := w.matched ++ [i], last := some i } := by
      rw [Walk.hit, Walk.act, discard]
    rw [hit]
    simp
  · rw [Walk.hit, Walk.act, contain]
    by_cases own : origin = .station owner <;> simp [own]

end Sys2Proof.Machine
end

section
/-! The hub after device reset meets every invariant. -/

namespace Sys2Proof.Machine

theorem State.reset_frame (k : Handle) : State.reset.frame k = Frame.free := Table.get_const _ k

theorem State.reset_intake (p : Station) : State.reset.intake.get p = [] := Per.get_const _ p

theorem State.reset_queue (p : Station) : (State.reset.posts.get p).queue = [] :=
  congrArg PostPath.queue (Per.get_const _ p)

theorem State.reset_ports : (Per.of fun p => (State.reset.ports.get p).afterReset) = State.reset.ports := rfl

theorem holdsSound_atReset : HoldsSound State.reset := by
  have sound := holdsSound_reset State.reset
  rw [State.reset_ports] at sound
  exact sound

theorem granulesSound_reset : GranulesSound State.reset := by
  refine ⟨holdsSound_atReset.frames, fun g => ?_⟩
  have chains : State.reset.chains = [] := by
    rw [State.chains, List.flatMap_eq_nil_iff]
    intro f stands
    obtain ⟨k, rfl⟩ := Table.mem_rows.mp stands
    exact congrArg Frame.chain (State.reset_frame k)
  have list : State.reset.store.freeList = List.finRange 512 := by simp only [State.reset, FrameStore.reset]
  rw [chains, List.append_nil, list]
  exact List.count_eq_one_of_mem (List.nodup_finRange 512) (List.mem_finRange g)

theorem sessionsSound_reset : SessionsSound State.reset where
  offline p _ := nothingHeld_reset p
  accepted p q accepts := by
    have none : State.reset.accepts p q = false := by cases p <;> cases q <;> rfl
    exact absurd (none.symm.trans accepts) nofun
  present p online := by
    have none : State.reset.inSession p = false := by cases p <;> rfl
    exact absurd (none.symm.trans online) nofun

theorem queuesBounded_reset : QueuesBounded State.reset := by
  intro p
  have none : ∀ k, State.reset.inBuildSet p k = false := fun k => by
    rw [State.inBuildSet, State.reset_frame]; rfl
  have builds : State.reset.builds p = ∅ := Finset.filter_eq_empty_iff.mpr fun k _ => by simp [none]
  refine ⟨?_, by simp [State.reset_intake]⟩
  rw [State.transmitUse_eq, builds]
  cases p <;> decide

theorem partitionSound_reset : PartitionSound State.reset := ⟨by decide, nofun⟩

theorem linkSound_reset : LinkSound State.reset := ⟨fun _ => ⟨rfl, rfl, rfl, rfl⟩, rfl, nofun⟩

theorem generatorSound_reset : GeneratorSound State.reset :=
  ⟨linkSound_reset, partitionSound_reset, fun up => absurd rfl up, nofun⟩

theorem lengthsBounded_reset : LengthsBounded State.reset := by
  refine ⟨fun k => ?_, fun p e stands => ?_⟩
  · rw [State.reset_frame]; decide
  · rw [State.reset_queue] at stands
    cases stands

theorem workConserved_reset : WorkConserved State.reset :=
  workConserved_iff.mpr ⟨partitionSound_reset, linkSound_reset, lengthsBounded_reset, Scheduler.bounded_reset,
    fun free => absurd rfl free.1⟩

/-- Settles O51: nothing is stored, held, owned, queued or under way. -/
theorem invariantsHoldAtReset : Obligations.InvariantsHoldAtReset := by
  refine ⟨fun p => ?_, State.reset_wf, fun k => ?_, granulesSound_reset, holdsSound_atReset, sessionsSound_reset,
    queuesBounded_reset, partitionSound_reset, generatorSound_reset, workConserved_reset⟩
  · rw [show State.reset.attention.get p = Attention.reset from Per.get_const _ p]
    exact ⟨rfl, fun _ => ⟨rfl, rfl⟩⟩
  · rw [State.reset_frame]; rfl

end Sys2Proof.Machine
end

section
/-! Classification: the walk over the table, and the result record it gives (R45 to R63). -/

namespace Sys2Proof.Machine

/-! ### The walk -/

theorem State.walk_skip {s : State} {h : Handle} {origin : Origin} {i : EntryIndex}
    (unapplied : (s.entry i).applying origin = none) (rest : List EntryIndex) (w : Walk) :
    s.walk h origin (i :: rest) w = s.walk h origin rest w := by
  simp only [State.walk, unapplied]

theorem State.walk_unmatched {s : State} {h : Handle} {origin : Origin} {i : EntryIndex} {c : Contents}
    {owner : Station} (applied : (s.entry i).applying origin = some c) (owned : (s.entry i).owner = some owner)
    (unmatched : s.kindMatches h c.kind = false) (rest : List EntryIndex) (w : Walk) :
    s.walk h origin (i :: rest) w = s.walk h origin rest w := by
  simp [State.walk, applied, owned, unmatched]

theorem State.walk_matched {s : State} {h : Handle} {origin : Origin} {i : EntryIndex} {c : Contents}
    {owner : Station} (applied : (s.entry i).applying origin = some c) (owned : (s.entry i).owner = some owner)
    (matched : s.kindMatches h c.kind = true) (rest : List EntryIndex) (w : Walk) :
    s.walk h origin (i :: rest) w = if c.terminal then w.hit s i c origin owner
      else s.walk h origin rest (w.hit s i c origin owner) := by
  simp [State.walk, applied, owned, matched]

/-- What a matching entry keeps, the walk keeps. -/
theorem State.walk_induction {s : State} {h : Handle} {origin : Origin} {P : Walk → Prop}
    (hit : ∀ w i c owner, P w → P (w.hit s i c origin owner)) (order : List EntryIndex) {w : Walk} (start : P w) :
    P (s.walk h origin order w) := by
  induction order generalizing w with
  | nil => exact start
  | cons i rest ih =>
    unfold State.walk
    split
    · split
      · split
        · exact hit _ _ _ _ start
        · exact ih (hit _ _ _ _ start)
      · exact ih start
    · exact ih start

/-- No station of the delivery set is excluded. -/
def Walk.Apart (w : Walk) : Prop := ∀ q, inSet w.excluded q = true → inSet w.delivery q = false

theorem Walk.Apart.hit {s : State} {origin : Origin} {w : Walk} (apart : w.Apart) (i : EntryIndex) (c : Contents)
    (owner : Station) : (w.hit s i c origin owner).Apart := by
  intro q
  have before := apart q
  unfold Walk.hit Walk.act
  cases c.action with
  | deliver =>
    intro excluded
    have excluded : inSet w.excluded q = true := excluded
    simp [before excluded, excluded]
  | discard =>
    simp only [inSet_or, inSet_and, inSet_not, Bool.or_eq_true, Bool.and_eq_false_iff, Bool.not_eq_false']
    exact Or.imp_left before
  | contain =>
    dsimp only
    split <;> exact before

theorem Contents.applies_link {c : Contents} : c.applies .link = true ↔ c.scope = .arrivals ∨ c.scope = .both := by
  simp [Contents.applies]

theorem Contents.applies_station {c : Contents} {o : Station} : c.applies (.station o) = true ↔
    (c.scope = .localPosts ∨ c.scope = .both) ∧ ∀ set, c.originSet = some set → inSet set o = true := by
  cases origins : c.originSet <;> simp [Contents.applies, origins]

/-! ### The result of a walk -/

theorem isBroadcast_eq (s : State) (h : Handle) :
    s.isBroadcast h = decide (s.bytesAt h 0 6 = [0xFF, 0xFF, 0xFF, 0xFF, 0xFF, 0xFF]) := by
  have all : s.bytesAt h 0 6 = [0xFF, 0xFF, 0xFF, 0xFF, 0xFF, 0xFF] ↔
      s.bytesAt h 0 6 = List.replicate 6 0xFF := Iff.rfl
  rw [Bool.eq_iff_iff, decide_eq_true_iff, all, List.eq_replicate_iff]
  simp [State.isBroadcast]

/-- The delivery set from default intake, station by station (R58). -/
theorem defaultDelivery_eq (s : State) (h : Handle) (origin : Origin) : s.defaultDelivery h origin =
    stationsWhere fun t => s.inSession t && decide (origin ≠ .station t) &&
      ((s.session t).defaultIntake == .all || ((s.session t).defaultIntake == .broadcast &&
        decide (s.bytesAt h 0 6 = [0xFF, 0xFF, 0xFF, 0xFF, 0xFF, 0xFF]))) := by
  refine set_ext fun t => ?_
  have apart : (origin != .station t) = decide (origin ≠ .station t) := by
    by_cases own : origin = .station t <;> simp [own]
  rw [State.defaultDelivery, inSet_stationsWhere, inSet_stationsWhere, isBroadcast_eq, apart]
  cases (s.session t).defaultIntake with
  | none => rfl
  | broadcast => rfl
  | all => rfl

/-- Settles O29: the walk by its cases, and the result record field by field. -/
theorem classificationFollowsTheWalk : Obligations.ClassificationFollowsTheWalk := by
  intro s h origin
  refine ⟨rfl, fun e c => ?_, fun w => rfl, fun i rest w unapplied => State.walk_skip unapplied rest w,
    fun i rest w c owner applied owned => ⟨fun unmatched => State.walk_unmatched applied owned unmatched rest w,
      fun matched passing => ?_, fun matched terminal => ?_⟩, ?_, fun w reached e => ?_⟩
  · rw [Entry.applying_eq_some_iff]
    cases origin with
    | link => rw [Contents.applies_link]
    | station o => rw [Contents.applies_station]
  · rw [State.walk_matched applied owned matched, passing]; rfl
  · rw [State.walk_matched applied owned matched, terminal]; rfl
  · have start : Walk.start.Apart := fun q empty => absurd empty (by simp [Walk.start])
    exact State.walk_induction (P := Walk.Apart) (fun w i c owner apart => apart.hit i c owner) s.evaluationOrder start
  · have delivered : (if w.last.isNone then s.defaultDelivery h origin else w.delivery) = reached := by
      rw [e, defaultDelivery_eq]
      cases w.last <;> simp
    have asleep : ∀ q, inSet (s.asleep reached w.wakeMark) q =
        (inSet reached q && s.isSuspended q && !inSet w.wakeMark q) := fun q => by
      rw [State.asleep, inSet_stationsWhere]
    refine ⟨rfl, rfl, rfl, fun q => ?_, fun q => ?_, fun q => ?_, rfl⟩
    · simp only [State.resultOf, delivered, inSet_and, inSet_not, asleep]
      cases inSet reached q <;> simp
    · rw [State.asleepOf, delivered, asleep]
    · simp only [State.resultOf, delivered, State.suspendedIn, inSet_stationsWhere, inSet_and, inSet_not, asleep]
      cases inSet reached q <;> cases s.isSuspended q <;> simp

end Sys2Proof.Machine
end

section
/-! The flags that one event raises at a station, when it counts and raises more than once (R165, R167, R171, R174). -/

namespace Sys2Proof.Machine

/-! ### Counters at their top value -/

theorem word_eq_top_iff {c : Word} : c = 0xFFFFFFFF ↔ c.toNat = 4294967295 := BitVec.toNat_inj.symm

theorem satAdd_top {c : Word} (n : Nat) (top : c = 0xFFFFFFFF) : satAdd c n = 0xFFFFFFFF := by
  rw [word_eq_top_iff] at top ⊢
  rw [satAdd_toNat]
  omega

/-- A step takes a counter to the top exactly when the counter was below it and is not any more. -/
theorem reachesTop_iff {c : Word} {n : Nat} : reachesTop c n = true ↔ c ≠ 0xFFFFFFFF ∧ satAdd c n = 0xFFFFFFFF := by
  have bound := c.isLt
  rw [Ne, word_eq_top_iff, word_eq_top_iff, satAdd_toNat, reachesTop, decide_eq_true_iff]
  unfold counterTop
  omega

/-- Settles O50: a step holds at the top, and SATURATED tells of the step that came there. -/
theorem countersHoldAtTheTop : Obligations.CountersHoldAtTheTop := by
  refine ⟨fun c step => ⟨fun below => ?_, fun above => ?_, ?_⟩, fun s step =>
    ⟨fun c => ⟨State.countLink_linkCounters s c step, s.countLink_saturated c step⟩,
      fun p c => ⟨State.countStation_stationCounters s p c step, s.countStation_saturated p c step⟩⟩⟩
  · rw [satAdd_toNat]; omega
  · rw [satAdd_toNat]; omega
  · have bound := c.isLt
    rw [reachesTop_iff, Ne, word_eq_top_iff, word_eq_top_iff]
    omega

/-! ### The signals of an event at a station -/

/-- What an event makes of a station's flags: the given ones, and SATURATED where a counter came to its top; the
station stays in or out of session, and a counter at its top stays there. -/
structure Signals (s t : State) (q : Station) (extra : Flag → Prop) : Prop where
  session : t.inSession q = s.inSession q
  stationTops : ∀ c, (s.stationCounters.get q).get c = 0xFFFFFFFF → (t.stationCounters.get q).get c = 0xFFFFFFFF
  linkTops : ∀ c, s.linkCounters.get c = 0xFFFFFFFF → t.linkCounters.get c = 0xFFFFFFFF
  raised : FlagsRaised s t q fun f => extra f ∨ (f = .saturated ∧ (LinkSaturates s t ∨ StationSaturates s t q))

theorem stationSaturates_of_same {s t : State} {q : Station} (same : t.stationCounters.get q = s.stationCounters.get q) :
    ¬ StationSaturates s t q := fun ⟨_, below, top⟩ => below (same ▸ top)

theorem linkSaturates_of_same {s t : State} (same : t.linkCounters = s.linkCounters) : ¬ LinkSaturates s t :=
  fun ⟨_, below, top⟩ => below (same ▸ top)

namespace Signals

variable {s t u : State} {q : Station} {a b : Flag → Prop}

theorem congr (h : Signals s t q a) (same : ∀ f, a f ↔ b f) : Signals s t q b := by
  obtain rfl : a = b := funext fun f => propext (same f)
  exact h

/-- An event that leaves the flags, the counters and the session of a station signals nothing to it. -/
theorem quiet (attention : t.attention.get q = s.attention.get q)
    (station : t.stationCounters.get q = s.stationCounters.get q) (link : t.linkCounters = s.linkCounters)
    (session : t.inSession q = s.inSession q) : Signals s t q fun _ => False where
  session := session
  stationTops c top := station ▸ top
  linkTops c top := link ▸ top
  raised := (FlagsRaised.of_eq attention).congr fun f => by
    simp [stationSaturates_of_same station, linkSaturates_of_same link]

theorem of_raised {f : Flag} {who : Station → Prop} (r : Raised s t f who)
    (station : t.stationCounters.get q = s.stationCounters.get q) (link : t.linkCounters = s.linkCounters)
    (session : t.inSession q = s.inSession q) : Signals s t q fun g => g = f ∧ who q where
  session := session
  stationTops c top := station ▸ top
  linkTops c top := link ▸ top
  raised := (r.flagsRaised q).congr fun f => by
    simp [stationSaturates_of_same station, linkSaturates_of_same link]

theorem raiseFlag (s : State) (f : Flag) (p q : Station) :
    Signals s (s.raiseFlag f p) q fun g => g = f ∧ q = p :=
  of_raised (who := fun q => q = p) (s.raiseFlag_raised f p) (by simp) (by simp) (by simp)

theorem raiseFlagAt (s : State) (f : Flag) (v : StationSet) (q : Station) :
    Signals s (s.raiseFlagAt f v) q fun g => g = f ∧ inSet v q = true :=
  of_raised (who := fun q => inSet v q = true) (s.raiseFlagAt_raised f v) (by simp) (by simp)
    (State.inSession_of_sessions (by simp) q)

theorem raiseFlagEverywhere (s : State) (f : Flag) (q : Station) :
    Signals s (s.raiseFlagEverywhere f) q fun g => g = f :=
  (of_raised (s.raiseFlagEverywhere_raised f) (by simp) (by simp)
    (State.inSession_of_sessions (by simp) q)).congr fun g => by simp

theorem countStation (s : State) (p : Station) (c : StationCounter) (n : Nat) (q : Station) :
    Signals s (s.countStation p c n) q fun _ => False := by
  have counters := State.countStation_stationCounters s p c n
  have session : (s.countStation p c n).inSession q = s.inSession q := State.inSession_of_sessions (by simp) q
  by_cases own : q = p
  swap
  · exact quiet (s.countStation_attention_ne c n own) (by rw [counters, Per.get_set_ne _ _ own]) (by simp) session
  subst own
  have after : ∀ d, ((s.countStation q c n).stationCounters.get q).get d =
      if d = c then satAdd ((s.stationCounters.get q).get c) n else (s.stationCounters.get q).get d := fun d => by
    rw [counters, Per.get_set_self, StationCounters.get_set]
  have saturates : StationSaturates s (s.countStation q c n) q ↔
      reachesTop ((s.stationCounters.get q).get c) n = true := by
    rw [reachesTop_iff]
    constructor
    · rintro ⟨d, below, top⟩
      rw [after] at top
      split at top
      · next same => subst same; exact ⟨below, top⟩
      · exact absurd top below
    · rintro ⟨below, top⟩
      exact ⟨c, below, by rw [after, if_pos rfl, top]⟩
  have link : ¬ LinkSaturates s (s.countStation q c n) := linkSaturates_of_same (by simp)
  refine ⟨session, fun d top => ?_, fun d top => by simpa using top, ?_⟩
  · rw [after]
    split
    · next same => subst same; exact satAdd_top n top
    · exact top
  · cases reached : reachesTop ((s.stationCounters.get q).get c) n with
    | true =>
      exact (((s.countStation_saturated q c n).1 reached).flagsRaised q).congr fun f => by
        simp [saturates, reached, link]
    | false =>
      exact (FlagsRaised.of_eq (by rw [(s.countStation_saturated q c n).2 reached])).congr fun f => by
        simp [saturates, reached, link]

theorem countLink (s : State) (c : LinkCounter) (n : Nat) (q : Station) :
    Signals s (s.countLink c n) q fun _ => False := by
  have after : ∀ d, (s.countLink c n).linkCounters.get d =
      if d = c then satAdd (s.linkCounters.get c) n else s.linkCounters.get d := fun d => by
    rw [State.countLink_linkCounters, LinkCounters.get_set]
  have saturates : LinkSaturates s (s.countLink c n) ↔ reachesTop (s.linkCounters.get c) n = true := by
    rw [reachesTop_iff]
    constructor
    · rintro ⟨d, below, top⟩
      rw [after] at top
      split at top
      · next same => subst same; exact ⟨below, top⟩
      · exact absurd top below
    · rintro ⟨below, top⟩
      exact ⟨c, below, by rw [after, if_pos rfl, top]⟩
  have station : ¬ StationSaturates s (s.countLink c n) q := stationSaturates_of_same (by simp)
  refine ⟨State.inSession_of_sessions (by simp) q, fun d top => by simpa using top, fun d top => ?_, ?_⟩
  · rw [after]
    split
    · next same => subst same; exact satAdd_top n top
    · exact top
  · cases reached : reachesTop (s.linkCounters.get c) n with
    | true =>
      exact (((s.countLink_saturated c n).1 reached).flagsRaised q).congr fun f => by
        simp [saturates, reached, station]
    | false =>
      exact (FlagsRaised.of_eq (by rw [(s.countLink_saturated c n).2 reached])).congr fun f => by
        simp [saturates, reached, station]

/-- Two parts of one event signal what each of them signals. -/
theorem trans (h : Signals s t q a) (k : Signals t u q b) : Signals s u q fun f => a f ∨ b f where
  session := k.session.trans h.session
  stationTops c top := k.stationTops c (h.stationTops c top)
  linkTops c top := k.linkTops c (h.linkTops c top)
  raised := by
    have station : StationSaturates s u q ↔ StationSaturates s t q ∨ StationSaturates t u q := by
      constructor
      · rintro ⟨c, below, top⟩
        by_cases between : (t.stationCounters.get q).get c = 0xFFFFFFFF
        · exact .inl ⟨c, below, between⟩
        · exact .inr ⟨c, between, top⟩
      · rintro (⟨c, below, top⟩ | ⟨c, below, top⟩)
        · exact ⟨c, below, k.stationTops c top⟩
        · exact ⟨c, mt (h.stationTops c) below, top⟩
    have link : LinkSaturates s u ↔ LinkSaturates s t ∨ LinkSaturates t u := by
      constructor
      · rintro ⟨c, below, top⟩
        by_cases between : t.linkCounters.get c = 0xFFFFFFFF
        · exact .inl ⟨c, below, between⟩
        · exact .inr ⟨c, between, top⟩
      · rintro (⟨c, below, top⟩ | ⟨c, below, top⟩)
        · exact ⟨c, below, k.linkTops c top⟩
        · exact ⟨c, mt (h.linkTops c) below, top⟩
    refine (h.raised.trans k.raised h.session).congr fun f => ?_
    rw [station, link]
    tauto

theorem then_quiet (h : Signals s t q a) (attention : u.attention.get q = t.attention.get q)
    (station : u.stationCounters.get q = t.stationCounters.get q) (link : u.linkCounters = t.linkCounters)
    (session : u.inSession q = t.inSession q) : Signals s u q a :=
  (h.trans (quiet attention station link session)).congr fun f => by simp

theorem after_quiet (h : Signals t u q a) (attention : t.attention.get q = s.attention.get q)
    (station : t.stationCounters.get q = s.stationCounters.get q) (link : t.linkCounters = s.linkCounters)
    (session : t.inSession q = s.inSession q) : Signals s u q a :=
  ((quiet attention station link session).trans h).congr fun f => by simp

theorem thenCountStation (h : Signals s t q a) (p : Station) (c : StationCounter) (n : Nat) :
    Signals s (t.countStation p c n) q a := (h.trans (countStation t p c n q)).congr fun f => by simp

theorem thenCountLink (h : Signals s t q a) (c : LinkCounter) (n : Nat) : Signals s (t.countLink c n) q a :=
  (h.trans (countLink t c n q)).congr fun f => by simp

/-- With no link counter touched, SATURATED tells of the station's own counters. -/
theorem flags (h : Signals s t q a) (link : t.linkCounters = s.linkCounters) :
    FlagsRaised s t q fun f => a f ∨ (f = .saturated ∧ StationSaturates s t q) :=
  h.raised.congr fun f => by simp [linkSaturates_of_same link]

/-- With no counter of the station touched, SATURATED tells of the link counters. -/
theorem linkFlags (h : Signals s t q a) (station : t.stationCounters.get q = s.stationCounters.get q) :
    FlagsRaised s t q fun f => a f ∨ (f = .saturated ∧ LinkSaturates s t) :=
  h.raised.congr fun f => by simp [stationSaturates_of_same station]

end Signals

end Sys2Proof.Machine
end

section
/-! The intake queue's ways out: the last requested byte, RXRELEASE and the hold limit (R96, R101 to R108). -/

namespace Sys2Proof.Machine

/-! ### The last requested byte -/

theorem exec_lastRequestedByte_of_reading {p : Station} {s : State} {r : ReadStream}
    (reads : (s.ports.get p).streaming = some r) : exec (.lastRequestedByte p) s = .next (s.shiftLast p r) := by
  simp only [exec, execLastRequestedByte, reads]

theorem exec_lastRequestedByte_of_quiet {p : Station} {s : State}
    (quiet : (s.ports.get p).streaming = none) : exec (.lastRequestedByte p) s = .next s := by
  simp only [exec, execLastRequestedByte, quiet]

theorem findIntake_isSome_iff {q : List IntakeEntry} {h : Handle} :
    (findIntake q h).isSome = true ↔ ∃ e ∈ q, e.handle = h := by
  simp [findIntake, List.find?_isSome]

/-- An end of a read that releases nothing changes only the port. -/
theorem State.shiftLast_keep {s : State} {p : Station} {r : ReadStream}
    (keeps : ¬ (s.releasesAtEnd r = true ∧ ∃ e ∈ s.intake.get p, e.handle = r.handle)) : s.shiftLast p r =
      s.setPort p ((s.ports.get p).sentLast r (s.byteAt r.handle (r.offset + r.count - 1))) := by
  have still : ∀ v, (s.setPort p v).releaseRead p r = s.setPort p v := fun v =>
    if_neg (by rw [findIntake_isSome_iff]; exact keeps)
  rw [State.shiftLast, still]
  exact State.closeEvent_same rfl rfl

/-- An end of a read that releases takes the entry and its intake hold; the read hold keeps the frame. -/
theorem State.shiftLast_release {s : State} {p : Station} {r : ReadStream} (releases : s.releasesAtEnd r = true)
    (queued : ∃ e ∈ s.intake.get p, e.handle = r.handle) (held : inSet (s.frame r.handle).holds.read p = true) :
    s.shiftLast p r = (s.setPort p ((s.ports.get p).sentLast r
      (s.byteAt r.handle (r.offset + r.count - 1)))).removeEntry p r.handle := by
  have released : ∀ v, (s.setPort p v).releaseRead p r = (s.setPort p v).removeEntry p r.handle := fun v =>
    if_pos ⟨releases, findIntake_isSome_iff.mpr queued⟩
  rw [State.shiftLast, released]
  refine State.closeEvent_nothing rfl (fun k => ?_) (thresholdsChanged_of_eq rfl)
  by_cases same : k = r.handle
  · subst same
    have left : ((((s.setPort p ((s.ports.get p).sentLast r (s.byteAt r.handle (r.offset + r.count - 1)))).removeEntry p
        r.handle).frame r.handle).holds).isEmpty = false := by
      refine Holds.nonempty_of_read (p := p) ?_
      simpa [Holds.withoutIntake] using held
    rw [lostLastHold, left, Bool.and_false]
  · simp [same]

theorem State.releasesAtEnd_iff {s : State} {r : ReadStream} : s.releasesAtEnd r = true ↔
    r.release = true ∧ r.offset + r.count = (s.frame r.handle).length := by
  simp [State.releasesAtEnd]

/-- Settles O35: the read's end and RXRELEASE remove the entry with its hold, or nothing. -/
theorem entriesAreReleased : Obligations.EntriesAreReleased := by
  refine ⟨fun p s => ⟨exec_lastRequestedByte_of_quiet, fun r v reads shown => ⟨fun keeps => ?_,
    fun flag whole queued held => ?_⟩⟩, fun p handle s carries active => ⟨fun unqueued => ?_, fun h named queued held => ?_⟩⟩
  · subst shown
    rw [exec_lastRequestedByte_of_reading reads, State.shiftLast_keep]
    · rfl
    · rw [State.releasesAtEnd_iff]
      rintro ⟨⟨flag, whole⟩, e, stands, same⟩
      rcases keeps with none | short | absent
      · exact absurd (none.symm.trans flag) nofun
      · exact short whole
      · exact absent e stands same
  · subst shown
    rw [exec_lastRequestedByte_of_reading reads,
      State.shiftLast_release (State.releasesAtEnd_iff.mpr ⟨flag, whole⟩) queued held]
    rfl
  all_goals have allowed : (s.session p).state ∈ sessionsFor .rxrelease := by simp [active, sessionsFor]
  · refine exec_answers s (refuse .rxrelease .badHandle) rfl rfl carries allowed ?_
    show rxreleaseEffect p handle s = _
    rw [rxreleaseEffect, State.queuedHandle_eq_none unqueued]
  · obtain ⟨t, ran, answered, same⟩ := exec_answers (i := .rxrelease p handle)
      (State.closeEvent s (s.removeEntry p h)) (answer []) rfl rfl carries allowed (by
        show rxreleaseEffect p handle s = _
        rw [rxreleaseEffect, State.queuedHandle_eq_some named queued])
    obtain ⟨released, only, mem, mac⟩ := State.closeEvent_oneFrame (s := s.removeEntry p h) (b := s)
      (left := { (s.frame h).holds with intake := eraseStation (s.frame h).holds.intake p })
      (Holds.nonempty_of_intake held) rfl rfl
    refine ⟨t, ran, answered, ?_, ?_, ?_, ?_, ?_, ?_⟩
    all_goals rw [same]
    · simp [dropIntake, State.removeEntry]
    · exact released
    · exact only
    · exact mem
    · exact mac.to_eq rfl rfl rfl rfl
    · rw [State.closeEvent_eq]; rfl

/-! ### The hold limit -/

theorem exec_holdLimitExpiry_of_none {p : Station} {s : State} (stopped : s.holdDeadline p = none) :
    exec (.holdLimitExpiry p) s = .next s := by
  simp only [exec, execHoldLimitExpiry, stopped]

theorem exec_holdLimitExpiry_of_some {p : Station} {s : State} {t : Nat} (runs : s.holdDeadline p = some t) :
    exec (.holdLimitExpiry p) s = .next (State.closeEvent s ((s.reach t).expireQueue p)) := by
  simp only [exec, execHoldLimitExpiry, runs]

/-- What the expiry of a queue signals: EXPIRED to its station, if an entry expired. -/
theorem Signals.expireQueue (s : State) (p q : Station) :
    Signals s (s.expireQueue p) q fun f => f = .expired ∧ q = p ∧ 0 < s.expiring p := by
  rw [State.expireQueue_eq]
  split
  · next none => exact (Signals.quiet (q := q) rfl rfl rfl rfl).congr fun f => by simp [none]
  · next some =>
    have taken : Signals s ((s.setIntake p ((s.intake.get p).drop (s.expiring p))).dropIntakeHolds p
        ((s.intake.get p).take (s.expiring p))) q fun _ => False :=
      Signals.quiet rfl rfl rfl rfl
    exact ((taken.thenCountStation p .expired (s.expiring p)).trans (Signals.raiseFlag _ .expired p q)).congr fun f => by
      simp [Nat.pos_of_ne_zero some]

/-- Settles O36: the deadline is that of the front entry, which expires with those behind it that have waited as
long. -/
theorem holdLimitExpiryDropsTheFront : Obligations.HoldLimitExpiryDropsTheFront := by
  intro p s
  refine ⟨fun stopped => exec_holdLimitExpiry_of_none ?_, fun e more now gone limited queue instant count => ?_⟩
  · rw [Option.eq_none_iff_forall_ne_some]
    rintro t runs
    obtain ⟨e, more, queue, limited, -⟩ := State.holdDeadline_eq_some_iff.mp runs
    rcases stopped with unlimited | empty
    · exact limited unlimited
    · exact absurd (queue.symm.trans empty) nofun
  have deadline : s.holdDeadline p = some (e.admitted + s.partition.installed.holdLimit.toNat * 100000) :=
    State.holdDeadline_eq_some_iff.mpr ⟨e, more, queue, limited, rfl⟩
  have expiring : (s.reach (e.admitted + s.partition.installed.holdLimit.toNat * 100000)).expiring p = gone := by
    rw [count, instant]; rfl
  have some_ : 1 ≤ gone := by
    have due : e.admitted + s.partition.installed.holdLimit.toNat * unitsPerMs ≤ now := instant ▸ Nat.le_max_right _ _
    rw [count, expiredCount, queue, List.takeWhile_cons_of_pos (by simpa using due), List.length_cons]
    omega
  refine ⟨_, exec_holdLimitExpiry_of_some deadline, some_, ?_, ?_, fun q => ?_, ?_, ?_, ?_⟩
  · simp [expiring]
  · simp [expiring]
  · have signals := Signals.expireQueue (s.reach (e.admitted + s.partition.installed.holdLimit.toNat * 100000)) p q
    have whole : Signals s (State.closeEvent s
        ((s.reach (e.admitted + s.partition.installed.holdLimit.toNat * 100000)).expireQueue p)) q _ :=
      (signals.after_quiet (s := s) rfl rfl rfl rfl).then_quiet (by simp) (by simp) (by simp)
        (State.inSession_of_sessions (by simp) q)
    refine (whole.flags (by simp)).congr fun f => ?_
    rw [expiring]
    by_cases own : q = p
    · subst own
      have : 0 < gone := some_
      tauto
    · have unsaturated : ¬ StationSaturates s (State.closeEvent s
          ((s.reach (e.admitted + s.partition.installed.holdLimit.toNat * 100000)).expireQueue p)) q :=
        stationSaturates_of_same (by simp [Per.get_set_ne _ _ own])
      tauto
  · refine State.closeEvent_holdsRemoved (fun k => ?_) (by simp) (by simp)
    rw [State.expireQueue_frame, expiring]
    show { s.frame k with holds := { (s.frame k).holds with
      intake := if ∃ x ∈ (s.intake.get p).take gone, x.handle = k
        then eraseStation (s.frame k).holds.intake p else (s.frame k).holds.intake } } = _
    split <;> rfl
  · exact State.closeEvent_answers (by simp) rfl rfl
  · rw [State.closeEvent_eq]
    subst instant
    apply State.ext <;> simp
    rfl

end Sys2Proof.Machine
end

section
/-! TXOPEN and TXWRITE: a build opened on granules of zeros, and a span of bytes written (R113 to R115, R16, R17). -/

namespace Sys2Proof.Machine

/-! ### Granules taken, and bytes written -/

/-- Granules taken read as zeros; every other byte is unchanged (R1). -/
theorem readByte_zeroGranules (l : List Granule) (m : Memory) (a : Nat) :
    readByte (l.foldl zeroGranule m) a = if l.any fun g => decide (a / 128 = g.val) then 0 else readByte m a := by
  induction l generalizing m with
  | nil => rfl
  | cons g rest ih =>
    rw [List.foldl_cons, ih, readByte_zeroGranule, List.any_cons]
    by_cases here : a / 128 = g.val <;> simp [here, granuleSize]

/-- Two bytes of a frame whose chain names no granule twice lie at different addresses. -/
theorem Frame.address_inj {f : Frame} (distinct : f.chain.Nodup) {j k a : Nat} (hj : f.address j = some a)
    (hk : f.address k = some a) : j = k := by
  unfold Frame.address at hj hk
  split at hj
  · next g atJ =>
    split at hk
    · next g' atK =>
      rw [Option.some.injEq] at hj hk
      have inJ := Nat.mod_lt j (show 0 < granuleSize by decide)
      have inK := Nat.mod_lt k (show 0 < granuleSize by decide)
      have same : g = g' := Fin.ext (by unfold granuleSize at *; omega)
      subst same
      obtain ⟨jBound, jth⟩ := List.getElem?_eq_some_iff.mp atJ
      obtain ⟨kBound, kth⟩ := List.getElem?_eq_some_iff.mp atK
      have place : j / granuleSize = k / granuleSize := (distinct.getElem_inj_iff).mp (jth.trans kth.symm)
      unfold granuleSize at *
      omega
    · cases hk
  · cases hj

theorem Frame.address_isSome {f : Frame} {k : Nat} (inside : k < 128 * f.chain.length) :
    ∃ a, f.address k = some a := by
  have bound : k / granuleSize < f.chain.length := by unfold granuleSize; omega
  exact ⟨_, by rw [Frame.address, List.getElem?_eq_getElem bound]⟩

/-- What a frame byte reads after a run of bytes was written into the frame: the byte of the run at its place, or
what it was. -/
theorem readByte_writeBytes_cells {f : Frame} (distinct : f.chain.Nodup) (bytes : List Byte) (m : Memory)
    {o k a : Nat} (inside : o + bytes.length ≤ 128 * f.chain.length) (here : f.address k = some a) :
    readByte (writeBytes m (f.cells o bytes)) a =
      if o ≤ k ∧ k < o + bytes.length then inByte bytes (k - o) else readByte m a := by
  induction bytes generalizing m o with
  | nil => simp [Frame.cells, writeBytes]
  | cons b rest ih =>
    obtain ⟨a', first⟩ := f.address_isSome (k := o) (by simp at inside; omega)
    have cells : f.cells o (b :: rest) = (a', b) :: f.cells (o + 1) rest := by rw [Frame.cells, first]
    have written : writeBytes m ((a', b) :: f.cells (o + 1) rest) =
        writeBytes (writeByte m a' b) (f.cells (o + 1) rest) := rfl
    have same : a = a' ↔ k = o :=
      ⟨fun e => Frame.address_inj distinct here (e ▸ first), fun e => by
        subst e; exact Option.some.inj (here.symm.trans first)⟩
    rw [cells, written, ih (writeByte m a' b) (by simp at inside; omega), readByte_writeByte]
    simp only [same]
    by_cases front : k = o
    · subst front
      simp [inByte]
    · by_cases later : o + 1 ≤ k ∧ k < o + 1 + rest.length
      · have back : k - o = k - (o + 1) + 1 := by omega
        rw [if_pos later, if_pos (by simp; omega), back]
        rfl
      · rw [if_neg later, if_neg front, if_neg (by simp; omega)]

/-- A byte that no written frame byte lies at is unchanged. -/
theorem readByte_storeBytes_of_unnamed {s : State} {h : Handle} {o : Nat} {bytes : List Byte} {a : Nat}
    (unnamed : ∀ i < bytes.length, (s.frame h).address (o + i) ≠ some a) :
    readByte (s.storeBytes h o bytes).store.mem a = readByte s.store.mem a := by
  refine readByte_writeBytes_of_notMem _ _ _ fun c stands e => ?_
  obtain ⟨i, bound, address, -⟩ := Frame.cells_mem stands
  exact unnamed i bound (e ▸ address)

/-- A frame byte after a run of bytes was stored into its frame. -/
theorem State.storeBytes_byteAt {s : State} {h : Handle} {o k : Nat} {bytes : List Byte}
    (distinct : (s.frame h).chain.Nodup) (inside : o + bytes.length ≤ 128 * (s.frame h).chain.length)
    (stored : k < 128 * (s.frame h).chain.length) : (s.storeBytes h o bytes).byteAt h k =
      if o ≤ k ∧ k < o + bytes.length then inByte bytes (k - o) else s.byteAt h k := by
  obtain ⟨a, here⟩ := Frame.address_isSome stored
  have written := readByte_writeBytes_cells distinct bytes s.store.mem inside here
  have before : s.byteAt h k = readByte s.store.mem a := by rw [State.byteAt, here]
  have after : (s.storeBytes h o bytes).byteAt h k = readByte (s.storeBytes h o bytes).store.mem a := by
    rw [State.byteAt, State.storeBytes_frame, here]
  rw [before, after]
  exact written

/-! ### TXWRITE -/

theorem writeInRange_iff {offset count length : Nat} : writeInRange offset count length = true ↔
    count ≠ 0 ∧ offset ≤ 1513 ∧ offset + count ≤ length := decide_eq_true_iff

theorem txwrite_effect (p : Station) (handle : Byte) (offset : Half) (data : List Byte) :
    effectOf .txwrite p ([handle] ++ halfBytes offset ++ beBytes 2 data.length ++ data) =
      txwriteEffect p handle offset data := by
  have offsetField : inHalf ([handle] ++ halfBytes offset ++ beBytes 2 data.length ++ data) 1 = offset := by
    simpa using inHalf_append [handle] (beBytes 2 data.length ++ data) offset
  have dataField : ([handle] ++ halfBytes offset ++ beBytes 2 data.length ++ data).drop 5 = data :=
    List.drop_left' (by simp)
  simp only [effectOf, offsetField, dataField]
  rfl

/-- Settles O38: the handle and the span decide the answer, and the bytes of the span are the only ones written. -/
theorem txwriteWritesItsSpan : Obligations.TxwriteWritesItsSpan := by
  intro p handle offset data s short carries active
  have allowed : (s.session p).state ∈ sessionsFor .txwrite := by simp [active, sessionsFor]
  have wf : (Instr.txwrite p handle offset data).wf = true := decide_eq_true short
  refine ⟨fun unbuilt => ?_, fun h named built => ⟨fun outside => ?_, fun nonempty low fits => ?_⟩⟩
  · refine exec_answers s (refuse .txwrite .badHandle) rfl wf carries allowed ?_
    rw [txwrite_effect, txwriteEffect, State.namedBuild_eq_none_iff.mpr unbuilt]
  · refine exec_answers s (refuse .txwrite .badArg) rfl wf carries allowed ?_
    rw [txwrite_effect, txwriteEffect, State.namedBuild_eq_some_iff.mpr ⟨named, built⟩]
    refine if_neg ?_
    rw [writeInRange_iff]
    rcases outside with empty | high | long
    · simp [empty]
    · omega
    · omega
  · obtain ⟨t, ran, answered, same⟩ := exec_answers (i := .txwrite p handle offset data)
      (s.storeBytes h offset.toNat data) (answer []) rfl wf carries allowed (by
        rw [txwrite_effect, txwriteEffect, State.namedBuild_eq_some_iff.mpr ⟨named, built⟩]
        exact if_pos (writeInRange_iff.mpr ⟨by simpa using nonempty, low, fits⟩))
    refine ⟨t, ran, answered, fun a unnamed => ?_, fun distinct chained k stored => ?_, ?_⟩
    · rw [same]
      exact readByte_storeBytes_of_unnamed unnamed
    · have byte := State.storeBytes_byteAt (k := k) distinct (bytes := data) (o := offset.toNat) (by omega) (by omega)
      rw [same]
      exact byte
    · rw [same]; rfl

/-! ### TXOPEN -/

/-- An event that takes no frame's last hold leaves the store as the event itself made it. -/
theorem State.closeEvent_store_kept {b s : State} (kept : ∀ k, lostLastHold (b.frame k) (s.frame k) = false) :
    (State.closeEvent b s).store = s.store := by
  apply FrameStore.ext
  · simp
  · rw [State.closeEvent_freeList]; simp [kept]
  · exact State.frames_ext fun k => by simp [kept]

theorem State.charge_eq (s : State) (p : Station) : s.charge p = ((List.finRange 128).map fun h =>
      if inSet (s.frame h).holds.build p || inSet (s.frame h).holds.intake p ||
        inSet (s.frame h).holds.read p || inSet (s.frame h).holds.post p
      then (s.frame h).chain.length else 0).sum := by
  rw [State.charge, Table.rows_eq_map, List.map_map]
  rfl

theorem txopen_effect (p : Station) (length : Half) :
    effectOf .txopen p (halfBytes length) = txopenEffect p length := by
  simp only [effectOf, inHalf_halfBytes]

theorem State.grantBuild_none {s : State} {p : Station} {n : Nat}
    (full : s.store.freeList.length < n ∨ (s.partition.installed.share.get p).quota.toNat < s.charge p + n ∨
      ∀ h, (s.frame h).state ≠ .free) : s.grantBuild p n = none := by
  unfold State.grantBuild
  split
  · rfl
  · next granted =>
    rw [not_or] at granted
    rcases full with few | large | none
    · exact absurd few granted.1
    · exact absurd large granted.2
    · exact lowestFree_eq_none_iff.mpr none

/-- Settles O37: the length, the allowance and the Frame Store decide the answer. -/
theorem txopenOpensABuild : Obligations.TxopenOpensABuild := by
  intro p length s n carries active granules
  subst granules
  have allowed : (s.session p).state ∈ sessionsFor .txopen := by simp [active, sessionsFor]
  refine ⟨s.charge_eq p, fun outside => ?_, fun long short full => ?_, fun long short room enough quota h free lowest => ?_⟩
  · refine exec_answers s (refuse .txopen .badArg) rfl rfl carries allowed ?_
    rw [txopen_effect]
    exact if_pos outside
  · have inside : ¬ (length.toNat < 14 ∨ 1514 < length.toNat) := by omega
    refine exec_answers s (refuse .txopen .noRoom) rfl rfl carries allowed ?_
    rw [txopen_effect]
    refine (if_neg inside).trans ?_
    by_cases busy : 8 ≤ s.transmitUse p
    · exact if_pos busy
    · refine (if_neg busy).trans ?_
      have none : s.grantBuild p (granulesFor length.toNat) = none := State.grantBuild_none (full.resolve_left busy)
      rw [none]
  · have inside : ¬ (length.toNat < 14 ∨ 1514 < length.toNat) := by omega
    have granted : s.grantBuild p (granulesFor length.toNat) = some h := by
      rw [State.grantBuild, if_neg (by rw [not_or, Nat.not_lt, Nat.not_lt]; exact ⟨enough, quota⟩)]
      exact lowestFree_eq_some_iff.mpr ⟨free, lowest⟩
    obtain ⟨t, ran, answered, same⟩ := exec_answers (i := .txopen p length)
      (State.closeEvent s (s.openBuild p h length.toNat)) (answer [BitVec.ofNat 8 h.val]) rfl rfl carries allowed (by
        rw [txopen_effect]
        refine (if_neg inside).trans ((if_neg (Nat.not_le.mpr room)).trans ?_)
        rw [granted])
    have kept : ∀ k, lostLastHold (s.frame k) ((s.openBuild p h length.toNat).frame k) = false := fun k => by
      by_cases built : k = h
      · subst built
        have held : (Frame.build p length.toNat
            (s.store.freeList.take (granulesFor length.toNat))).holds.isEmpty = false :=
          Holds.nonempty_of_build (p := p) (by simp [Frame.build])
        simp [State.openBuild, lostLastHold, held]
      · simp [State.openBuild, built]
    have store := State.closeEvent_store_kept kept
    refine ⟨t, ran, answered, ?_, ?_, fun a => ?_, ?_, ?_⟩
    all_goals rw [same]
    · exact congrArg FrameStore.freeList store
    · exact congrArg FrameStore.frames store
    · have mem : (State.closeEvent s (s.openBuild p h length.toNat)).store.mem =
          (s.store.freeList.take (granulesFor length.toNat)).foldl zeroGranule s.store.mem :=
        congrArg FrameStore.mem store
      rw [mem]
      exact readByte_zeroGranules _ _ a
    · refine (State.closeEvent_answers (b := s) (c := s) (s := s.openBuild p h length.toNat) ?_ rfl rfl).to_eq
        rfl rfl rfl rfl
      simp
    · rw [State.closeEvent_eq]; rfl

end Sys2Proof.Machine
end

section
/-! TXCANCEL and TXDONE, the end of a transmission, and the timers of the link (R121 to R124, R128, R138 to R146). -/

namespace Sys2Proof.Machine

/-! ### Completions -/

theorem State.complete_posts (s : State) (p : Station) (c : Completion) : (s.complete p c).posts =
    s.posts.set p { s.posts.get p with completions := (s.posts.get p).completions ++ [c] } := by
  simp [State.complete]

theorem Signals.complete (s : State) (p : Station) (c : Completion) (q : Station) :
    Signals s (s.complete p c) q fun f => f = .txdone ∧ q = p :=
  (Signals.raiseFlag (s.setPosts p { s.posts.get p with completions := (s.posts.get p).completions ++ [c] })
    .txdone p q).after_quiet rfl rfl rfl rfl

/-- A reported end takes the front entry off and writes its completion (R128, R129). -/
theorem State.reportEnd_posts (s : State) (p : Station) (h : Handle) (outcome : PostOutcome) :
    (s.reportEnd p h outcome).posts =
      postsEnded s p h outcome fun e => if outcome = .sent then e.wireLength else 0 := by
  unfold State.reportEnd postsEnded State.reported
  by_cases held : inSet (s.frame h).holds.post p = true
  · cases queue : (s.posts.get p).queue with
    | nil => simp [held]
    | cons e rest => simp [held, State.complete_posts, PostEntry.ended]
  · simp [held]

theorem Signals.reportEnd (s : State) (p : Station) (h : Handle) (outcome : PostOutcome) (q : Station) :
    Signals s (s.reportEnd p h outcome) q fun f => f = .txdone ∧ q = p ∧ s.reported p h ≠ none := by
  unfold State.reportEnd State.reported
  by_cases held : inSet (s.frame h).holds.post p = true
  · cases queue : (s.posts.get p).queue with
    | nil => simpa [held, queue] using Signals.quiet (s := s) (t := s) (q := q) rfl rfl rfl rfl
    | cons e rest =>
      have completed := (Signals.complete (s.setPosts p { s.posts.get p with queue := rest }) p
        (e.ended outcome (if outcome = .sent then e.wireLength else 0)) q).after_quiet (s := s) rfl rfl rfl rfl
      simpa [held, queue] using completed
  · simpa [held] using Signals.quiet (s := s) (t := s) (q := q) rfl rfl rfl rfl

/-- Flags of one station, and SATURATED for its own counters, when no other station's counters change. -/
theorem FlagsRaised.atStation {s t : State} {p q : Station} {a : Flag → Prop}
    (h : FlagsRaised s t q fun f => (a f ∧ q = p) ∨ (f = .saturated ∧ StationSaturates s t q))
    (others : q ≠ p → t.stationCounters.get q = s.stationCounters.get q) :
    FlagsRaised s t q fun f => q = p ∧ (a f ∨ (f = .saturated ∧ StationSaturates s t p)) := by
  refine h.congr fun f => ?_
  by_cases own : q = p
  · subst own
    tauto
  · have unsaturated := stationSaturates_of_same (others own)
    tauto

/-! ### TXCANCEL and TXDONE -/

theorem State.postEntry_eq_none_iff {s : State} {p : Station} {h : Handle} :
    s.postEntry p h = none ↔ ∀ x ∈ (s.posts.get p).queue, x.handle ≠ h := by
  simp [State.postEntry, List.find?_eq_none]

theorem State.postEntry_of_split {s : State} {p : Station} {h : Handle} {e : PostEntry} {front back : List PostEntry}
    (queue : (s.posts.get p).queue = front ++ e :: back) (same : e.handle = h) (first : ∀ x ∈ front, x.handle ≠ h) :
    s.postEntry p h = some e := by
  have none : front.find? (fun x => Decidable.decide (x.handle = h)) = none := by
    simpa [List.find?_eq_none] using first
  rw [State.postEntry, queue, List.find?_append, none]
  simp [same]

/-- A withdrawn post: the entry out of the queue and a CANCELLED completion (R121, case 2). -/
theorem State.cancelPost_posts {s : State} {p : Station} {e : PostEntry} {front back : List PostEntry}
    (queue : (s.posts.get p).queue = front ++ e :: back) (first : ∀ x ∈ front, x.handle ≠ e.handle)
    (last : ∀ x ∈ back, x.handle ≠ e.handle) : (s.cancelPost p e).posts = s.posts.set p
      { queue := front ++ back,
        completions := (s.posts.get p).completions ++
          [{ handle := e.handle, number := e.number, outcome := .cancelled, deliveries := e.deliveries,
             wireLength := 0 }],
        number := (s.posts.get p).number } := by
  have rest : (s.posts.get p).queue.filter (fun x => Decidable.decide (x.handle ≠ e.handle)) = front ++ back := by
    rw [queue, List.filter_append, List.filter_cons_of_neg (by simp)]
    rw [List.filter_eq_self.mpr (by simpa using first), List.filter_eq_self.mpr (by simpa using last)]
  unfold State.cancelPost
  simp only [rest]
  simp [State.complete_posts, PostEntry.ended]

theorem Signals.cancelPost (s : State) (p : Station) (e : PostEntry) (q : Station) :
    Signals s (s.cancelPost p e) q fun f => f = .txdone ∧ q = p :=
  (((Signals.complete _ p (e.ended .cancelled 0) q).thenCountStation p .cancelled 1)).after_quiet rfl rfl rfl rfl

theorem State.namedBuild_none {s : State} {p : Station} {handle : Byte} {h : Handle} (named : handle.toNat = h.val)
    (unbuilt : s.inBuildSet p h = false) : s.namedBuild p handle = none :=
  State.namedBuild_eq_none_iff.mpr fun k same => by
    obtain rfl : k = h := Fin.ext (same.symm.trans named)
    exact unbuilt

theorem txcancelEffect_of_none {p : Station} {handle : Byte} {s : State} (unbuilt : s.namedBuild p handle = none)
    (unqueued : (handleOf handle).bind (s.postEntry p) = none) :
    txcancelEffect p handle s = (s, refuse .txcancel .badHandle) := by
  simp only [txcancelEffect, unbuilt, unqueued]

theorem txcancelEffect_of_post {p : Station} {handle : Byte} {s : State} {e : PostEntry}
    (unbuilt : s.namedBuild p handle = none) (queued : (handleOf handle).bind (s.postEntry p) = some e) :
    txcancelEffect p handle s = if e.started then (s, refuse .txcancel .tooLate)
      else (State.closeEvent s (s.cancelPost p e), answer []) := by
  simp only [txcancelEffect, unbuilt, queued]

/-- Settles O41: a build, a post that waits, a post being sent, or nothing of the station; and the oldest
completion. -/
theorem txcancelAndTxdone : Obligations.TxcancelAndTxdone := by
  intro p s active
  have cancels : (s.session p).state ∈ sessionsFor .txcancel := by simp [active, sessionsFor]
  have dones : (s.session p).state ∈ sessionsFor .txdone := by simp [active, sessionsFor]
  refine ⟨fun handle carries => ⟨fun nothing => ?_, fun h named => ⟨fun built => ?_,
    fun e front back unbuilt queue same first last => ⟨fun started => ?_, fun waiting held => ?_⟩⟩⟩,
    fun carries => ⟨fun none => ?_, fun c more oldest => ?_⟩⟩
  · refine exec_answers s (refuse .txcancel .badHandle) rfl rfl carries cancels ?_
    refine txcancelEffect_of_none (State.namedBuild_eq_none_iff.mpr fun h same => (nothing h same).1) ?_
    rw [Option.bind_eq_none_iff]
    exact fun h named => State.postEntry_eq_none_iff.mpr (nothing h (handleOf_eq_some_iff.mp named)).2
  · obtain ⟨t, ran, answered, same⟩ := exec_answers (i := .txcancel p handle)
      (State.closeEvent s (s.dropBuildHold p h)) (answer []) rfl rfl carries cancels (by
        show txcancelEffect p handle s = _
        rw [txcancelEffect, State.namedBuild_eq_some_iff.mpr ⟨named, built⟩])
    have held : inSet (s.frame h).holds.build p = true := (State.inBuildSet_iff.mp built).2
    obtain ⟨released, only, mem, mac⟩ := State.closeEvent_oneFrame (s := s.dropBuildHold p h) (b := s)
      (left := { (s.frame h).holds with build := eraseStation (s.frame h).holds.build p })
      (Holds.nonempty_of_build held) rfl rfl
    refine ⟨t, ran, answered, ?_, ?_, ?_, ?_, ?_⟩
    all_goals rw [same]
    · exact released
    · exact only
    · exact mem
    · exact mac.to_eq rfl rfl rfl rfl
    · rw [State.closeEvent_eq]; rfl
  all_goals try subst same
  · have queued : (handleOf handle).bind (s.postEntry p) = some e := by
      rw [handleOf_eq_some_iff.mpr named, Option.bind_some, State.postEntry_of_split queue rfl first]
    exact exec_answers s (refuse .txcancel .tooLate) rfl rfl carries cancels
      ((txcancelEffect_of_post (State.namedBuild_none named unbuilt) queued).trans (if_pos started))
  · have queued : (handleOf handle).bind (s.postEntry p) = some e := by
      rw [handleOf_eq_some_iff.mpr named, Option.bind_some, State.postEntry_of_split queue rfl first]
    obtain ⟨t, ran, answered, same⟩ := exec_answers (i := .txcancel p handle)
      (State.closeEvent s (s.cancelPost p e)) (answer []) rfl rfl carries cancels
      ((txcancelEffect_of_post (State.namedBuild_none named unbuilt) queued).trans (if_neg (by simp [waiting])))
    obtain ⟨released, only, mem, mac⟩ := State.closeEvent_oneFrame (s := s.cancelPost p e) (b := s)
      (left := { (s.frame e.handle).holds with post := eraseStation (s.frame e.handle).holds.post p })
      (Holds.nonempty_of_post held) (by simp [State.cancelPost, State.dropPostHold]; rfl) (by simp)
    refine ⟨t, ran, answered, ?_, fun q => ?_, ?_, ?_, ?_, ?_, ?_, ?_⟩
    all_goals rw [same]
    · simp [State.cancelPost_posts queue first last]
    · have signals := (Signals.cancelPost s p e q).then_quiet (u := State.closeEvent s (s.cancelPost p e))
        (by simp) (by simp) (by simp) (State.inSession_of_sessions (by simp) q)
      exact FlagsRaised.atStation (signals.flags (by simp)) fun other => by
        simp [State.cancelPost, Per.get_set_ne _ _ other]
    · simp [State.cancelPost, StationCounters.set, StationCounters.get]
    · exact released
    · exact only
    · exact mem
    · exact mac.to_eq rfl rfl rfl rfl
    · rw [State.closeEvent_eq]
      apply State.ext <;> simp
  · refine exec_answers s (refuse .txdone .empty) rfl rfl carries dones ?_
    show txdoneEffect p s = _
    rw [txdoneEffect, none]
  · obtain ⟨t, ran, answered, same⟩ := exec_answers (i := .txdone p)
      (s.setPosts p { s.posts.get p with completions := more }) (answer c.bytes) rfl rfl carries dones (by
        show txdoneEffect p s = _
        rw [txdoneEffect, oldest])
    refine ⟨t, ran, answered.congr ?_, same⟩
    show c.bytes = _
    unfold Completion.bytes
    cases c.outcome <;> rfl

end Sys2Proof.Machine
end

section
/-! The end of a transmission, and the timers of the link (R128, R138 to R146). -/

namespace Sys2Proof.Machine

/-! ### The frame on the wire -/

theorem State.sentBytes_length (s : State) (h : Handle) : (s.sentBytes h).length = max (s.frame h).length 60 := by
  simp [State.sentBytes, wireLengthOf, minWireLength]

theorem State.inByte_sentBytes (s : State) (h : Handle) (k : Nat) :
    inByte (s.sentBytes h) k = if k < (s.frame h).length then s.byteAt h k else 0 := by
  unfold State.sentBytes
  split
  · next stored =>
    have front : inByte (s.bytesAt h 0 (s.frame h).length ++
        zeros (wireLengthOf (s.frame h).length - (s.frame h).length)) k = inByte (s.bytesAt h 0 (s.frame h).length) k := by
      unfold inByte
      rw [List.getD_append _ _ _ _ (by simpa using stored)]
    rw [front, State.inByte_bytesAt stored, Nat.zero_add]
  · next padded =>
    unfold inByte
    rw [List.getD_append_right _ _ _ _ (by simpa using padded)]
    simp [zeros, List.getD, List.getElem?_replicate]
    split <;> rfl

/-! ### The end of a station frame -/

theorem State.reported_congr {s t : State} {p : Station} {h : Handle} (posts : t.posts = s.posts)
    (holds : (t.frame h).holds.post = (s.frame h).holds.post) : t.reported p h = s.reported p h := by
  rw [State.reported, State.reported, holds, posts]

theorem postsEnded_congr {s t : State} {p : Station} {h : Handle} {outcome : PostOutcome} {w : PostEntry → Nat}
    (posts : t.posts = s.posts) (holds : (t.frame h).holds.post = (s.frame h).holds.post) :
    postsEnded t p h outcome w = postsEnded s p h outcome w := by
  unfold postsEnded
  rw [State.reported_congr posts holds, posts]

theorem State.countSent_counters (s : State) (p : Station) (h : Handle) : (s.countSent p h).stationCounters =
    if inSet (s.frame h).holds.post p then s.stationCounters.set p { s.stationCounters.get p with
      sent := satAdd (s.stationCounters.get p).sent 1 } else s.stationCounters := by
  unfold State.countSent
  split
  · simp [StationCounters.set, StationCounters.get]
  · rfl

theorem Signals.countSent (s : State) (p : Station) (h : Handle) (q : Station) :
    Signals s (s.countSent p h) q fun _ => False := by
  unfold State.countSent
  split
  · exact Signals.countStation s p .sent 1 q
  · exact Signals.quiet rfl rfl rfl rfl

theorem exec_transmissionComplete {s : State} {p : Station} {h : Handle} {endsAt : Nat}
    (sends : s.mac.tx = .station p h endsAt) : exec .transmissionComplete s =
      .next (State.takeWork (State.closeEvent s ((s.reach endsAt).sendEnded p h))) := by
  simp only [exec, execTransmissionComplete, sends]

theorem Signals.sendEnded (s : State) (p : Station) (h : Handle) (q : Station) :
    Signals s (s.sendEnded p h) q fun f => f = .txdone ∧ q = p ∧ s.reported p h ≠ none := by
  have reported : (s.countSent p h).reported p h = s.reported p h := State.reported_congr (by simp) (by simp)
  have ended := ((Signals.countSent s p h q).trans (Signals.reportEnd (s.countSent p h) p h .sent q)).thenCountLink
    .framesSent 1
  have counted := ended.thenCountLink .bytesSent (wireLengthOf (s.frame h).length)
  exact (counted.then_quiet (u := s.sendEnded p h) (by rfl) (by rfl) (by rfl) rfl).congr fun f => by
    simp [reported]

/-- The end of a station frame takes its post and wire holds, and does nothing else to the store. -/
theorem State.sendEnded_store (s : State) (p : Station) (h : Handle) : (s.sendEnded p h).store =
    (s.setFrame h { s.frame h with
      holds := { (s.frame h).holds with post := eraseStation (s.frame h).holds.post p, wire := false } }).store := by
  apply FrameStore.ext
  · simp
  · simp
  · refine State.frames_ext (s := s.setFrame h _) (t := s.sendEnded p h) fun k => ?_
    rw [State.sendEnded_frame, State.setFrame_frame]
    split
    · next same => subst same; rfl
    · rfl

/-- Settles O43: the bytes sent, and what the end of a frame reports, counts and releases. -/
theorem transmissionCompleteReports : Obligations.TransmissionCompleteReports := by
  intro s
  refine ⟨fun idle => ?_, fun p h endsAt sends => ⟨s.sentBytes h, ?_, s.sentBytes_length h, fun k _ =>
    s.inByte_sentBytes h k⟩, fun other => ?_, fun p h endsAt sends wired => ?_⟩
  · rw [State.onWire, idle]
  · rw [State.onWire, sends]
  · cases tx : s.mac.tx with
    | station p h e => exact absurd tx (other p h e)
    | idle => simp only [exec, execTransmissionComplete, tx]
    | flow q e => simp only [exec, execTransmissionComplete, tx]
  · have held : (s.frame h).holds.isEmpty = false := by
      rw [← Bool.not_eq_true, Holds.isEmpty_iff]
      simp [wired]
    obtain ⟨released, only, mem, mac⟩ := State.closeEvent_oneFrame_after (b := s)
      (s := (s.reach endsAt).sendEnded p h) (c := { s with mac := { s.mac with tx := .idle } })
      (left := { (s.frame h).holds with post := eraseStation (s.frame h).holds.post p, wire := false })
      held (State.sendEnded_store _ p h) (by simp [State.sendEnded, State.endTransmission]) rfl rfl
    refine ⟨_, _, exec_transmissionComplete sends, State.takeWork_tookWork _, ?_, ?_, ?_, fun q => ?_, released, only,
      mem, mac, ?_⟩
    · simp [State.sendEnded, LinkCounters.set, LinkCounters.get, wireLengthOf, minWireLength]
    · simp [State.sendEnded, State.reportEnd_posts, postsEnded_congr (s := s)]
    · simp [State.sendEnded, State.countSent_counters]
    · exact ((((Signals.sendEnded (s.reach endsAt) p h q).after_quiet (s := s) rfl rfl rfl rfl).then_quiet
        (by simp) (by simp) (by simp) (State.inSession_of_sessions (by simp) q)).raised)
    · rw [State.closeEvent_eq]
      apply State.ext <;> simp
      rfl

/-! ### The timers of the link -/

/-- Settles O45: each timer's event, and none of them while its timer is stopped. -/
theorem linkTimersExpire : Obligations.LinkTimersExpire := by
  intro s
  refine ⟨fun q endsAt body sends bytes => ?_, fun other => ?_, fun q endsAt sends => ?_, fun stopped => ?_,
    fun t runs => ?_, fun stopped => ?_, fun speed t now up runs instant => ?_⟩
  · subst bytes
    refine ⟨by simp, ?_⟩
    simp only [State.onWire, sends]
    rfl
  · cases tx : s.mac.tx with
    | station p h e => simp only [exec, execFlowControlComplete, tx]
    | idle => simp only [exec, execFlowControlComplete, tx]
    | flow q e => exact absurd tx (other q e)
  · refine ⟨_, { (s.reach endsAt).countLink .pauseSent 1 with mac := { ((s.reach endsAt).countLink .pauseSent 1).mac with
      tx := .idle } }, ?_, State.takeWork_tookWork _, ?_, ?_⟩
    · simp only [exec, execFlowControlComplete, sends]
    · have saturated := (s.reach endsAt).countLink_saturated .pauseSent 1
      exact ⟨fun top => (saturated.1 top).of_eq rfl rfl, fun low => saturated.2 low⟩
    · apply State.ext <;> simp [LinkCounters.set, LinkCounters.get]
      rfl
  · simp only [exec, execPauseTimerExpiry, stopped]
  · refine ⟨_, by simp only [exec, execPauseTimerExpiry, runs]; rfl, State.takeWork_tookWork _⟩
  · rcases stopped with down | none
    · simp only [exec, execRefreshTimerExpiry, down]
    · cases link : s.mac.link <;> simp only [exec, execRefreshTimerExpiry, link, none]
  · subst instant
    simp only [exec, execRefreshTimerExpiry, up, runs]
    refine congrArg Host.Outcome.next ?_
    apply State.ext
    case mac =>
      refine Eq.trans (State.requestFlow_mac (speed := speed) _ (by exact up)) ?_
      by_cases idle : s.mac.tx = .idle <;> simp [Mac.requested, idle, up, Speed.refreshTime, State.reach]
    all_goals simp
    rfl

end Sys2Proof.Machine
end

section
/-! The moves of the link (R134 to R137). -/

namespace Sys2Proof.Machine

/-! ### The move to UP -/

theorem State.moveUp_movedUp (s : State) : MovedUp s s.moveUp s.pinSpeed where
  speed100 := rfl
  stages := by
    refine ⟨State.raiseFlagEverywhere { s with mac := { s.mac with link := .up s.pinSpeed } } .link, _, ?_, ?_,
      State.respond_answered _ _, ?_, State.takeWork_tookWork _⟩
    · exact (State.raiseFlagEverywhere_raised { s with mac := { s.mac with link := .up s.pinSpeed } } .link).of_eq rfl rfl
    · apply State.ext <;> simp
    · apply State.ext <;> simp

/-- A move to UP takes no hold and no granule, so the close of its event does nothing. -/
theorem State.closeEvent_moveUp {b s : State} (store : s.store = b.store) (partition : s.partition = b.partition) :
    State.closeEvent b s.moveUp = s.moveUp := by
  have frames : ∀ k, s.frame k = b.frame k := fun k => State.frame_of_frames (congrArg FrameStore.frames store) k
  refine State.closeEvent_nothing (by simp [store]) (fun k => ?_) (thresholdsChanged_of_eq (by simp [partition]))
  cases empty : (s.moveUp.frame k).holds.isEmpty with
  | false => rw [lostLastHold, empty, Bool.and_false]
  | true =>
    have before := State.takeWork_held empty
    rw [State.respond_frame, State.raiseFlagEverywhere_frame] at before
    have before : (b.frame k).holds.isEmpty = true := (congrArg (fun f => f.holds.isEmpty) (frames k)).symm.trans before
    rw [lostLastHold, before]
    rfl

/-! ### The move to DOWN -/

theorem State.cutReception_counters (s : State) : s.cutReception.linkCounters = { s.linkCounters with
    aborted := if receiving s then satAdd s.linkCounters.aborted 1 else s.linkCounters.aborted } := by
  unfold State.cutReception receiving
  cases s.mac.receiver <;> simp [State.discardFrame, LinkCounters.set, LinkCounters.get]

theorem State.loseTransmission_counters (s : State) : s.loseTransmission.linkCounters = { s.linkCounters with
    linkLost := if sending s then satAdd s.linkCounters.linkLost 1 else s.linkCounters.linkLost } := by
  unfold State.loseTransmission sending
  cases s.mac.tx <;> simp [LinkCounters.set, LinkCounters.get]

theorem Signals.cutReception (s : State) (q : Station) : Signals s s.cutReception q fun _ => False := by
  unfold State.cutReception
  cases s.mac.receiver with
  | idle => exact Signals.quiet rfl rfl rfl rfl
  | skipping => exact Signals.quiet rfl rfl rfl rfl
  | storing h => exact (Signals.countLink s .aborted 1 q).then_quiet rfl rfl rfl rfl

/-- The station frame that a hub is sending, its station and what its end reports. -/
def Cut (s : State) (q : Station) : Prop := ∃ h e, s.mac.tx = .station q h e ∧ s.reported q h ≠ none

theorem State.loseTransmission_unsent {s : State} (unsent : sending s = false) :
    s.loseTransmission = { s with mac := { s.mac with tx := .idle } } := by
  cases tx : s.mac.tx with
  | idle =>
    have still : s.loseTransmission = s := by simp only [State.loseTransmission, tx]
    rw [still, ← tx]
  | flow => simp only [State.loseTransmission, tx]
  | station p h e => rw [sending, tx] at unsent; cases unsent

theorem State.loseTransmission_station {s : State} {p : Station} {h : Handle} {e : Nat}
    (sends : s.mac.tx = .station p h e) :
    s.loseTransmission = ((s.reportEnd p h .linkLost).countLink .linkLost 1).endTransmission p h := by
  simp only [State.loseTransmission, sends]

theorem Signals.loseTransmission (s : State) (q : Station) :
    Signals s s.loseTransmission q fun f => f = .txdone ∧ Cut s q := by
  have none : sending s = false → Signals s s.loseTransmission q fun f => f = .txdone ∧ Cut s q := fun unsent => by
    rw [State.loseTransmission_unsent unsent]
    refine Signals.congr (Signals.quiet rfl rfl rfl rfl) fun f => ?_
    refine iff_of_false id ?_
    rintro ⟨-, h, e, sends, -⟩
    rw [sending, sends] at unsent
    cases unsent
  cases tx : s.mac.tx with
  | idle => exact none (by rw [sending, tx])
  | flow => exact none (by rw [sending, tx])
  | station p h e =>
    rw [State.loseTransmission_station tx]
    refine Signals.congr (((Signals.reportEnd s p h .linkLost q).thenCountLink .linkLost 1).then_quiet rfl rfl rfl rfl)
      fun f => ?_
    constructor
    · rintro ⟨done, rfl, reported⟩
      exact ⟨done, h, e, tx, reported⟩
    · rintro ⟨done, h', e', sends, reported⟩
      cases tx.symm.trans sends
      exact ⟨done, rfl, reported⟩

theorem State.cut_takenDown (s : State) (q : Station) : Cut s.takeDown.cutReception q ↔ Cut s q := by
  have reported : ∀ h, s.takeDown.cutReception.reported q h = s.reported q h := fun h =>
    State.reported_congr (by simp) (by simp)
  have tx : s.takeDown.cutReception.mac.tx = s.mac.tx := by simp
  unfold Cut
  simp only [tx, reported]

theorem Signals.moveDown (s : State) (q : Station) :
    Signals s s.moveDown q fun f => f = .link ∨ (f = .txdone ∧ Cut s q) :=
  Signals.congr (((Signals.cutReception s.takeDown q).trans (Signals.loseTransmission _ q)).trans
    (Signals.raiseFlagEverywhere _ .link q) |>.after_quiet rfl rfl rfl rfl) fun f => by
      rw [State.cut_takenDown]; tauto

theorem State.moveDown_movedDown (s : State) : MovedDown s (State.closeEvent s s.moveDown) where
  mac := State.closeEvent_mac (P := (· = _)) s.moveDown_mac fun speed _ _ _ _ up => by simp at up
  holds := State.closeEvent_holdsRemoved s.moveDown_frame (by simp) (by simp)
  counters := by
    have same : s.moveDown.linkCounters = s.takeDown.cutReception.loseTransmission.linkCounters := by
      simp [State.moveDown]
    have receives : receiving s.takeDown = receiving s := rfl
    have sends : sending s.takeDown.cutReception = sending s := by
      unfold sending; rw [show s.takeDown.cutReception.mac.tx = s.mac.tx by simp]
    simp [same, State.loseTransmission_counters, State.cutReception_counters, receives, sends]
  posts p h e sends := by
    have same : s.moveDown.posts = s.takeDown.cutReception.loseTransmission.posts := by simp [State.moveDown]
    have tx : s.takeDown.cutReception.mac.tx = .station p h e := by simpa using sends
    have closed : (State.closeEvent s s.moveDown).posts = s.moveDown.posts := by simp
    rw [closed]
    simp [same, State.loseTransmission_station tx, State.reportEnd_posts, postsEnded_congr (s := s)]
  unsent idle := by
    have same : s.moveDown.posts = s.takeDown.cutReception.loseTransmission.posts := by simp [State.moveDown]
    have unsent : sending s.takeDown.cutReception = false := by
      unfold sending at idle ⊢
      rwa [show s.takeDown.cutReception.mac.tx = s.mac.tx by simp]
    simp [same, State.loseTransmission_unsent unsent]
  flags q := ((((Signals.moveDown s q).then_quiet (u := State.closeEvent s s.moveDown) (by simp) (by simp) (by simp)
    (State.inSession_of_sessions (by simp) q)).linkFlags (by simp))).congr fun f => by rw [or_assoc]; rfl
  kept := by
    rw [State.closeEvent_eq]
    apply State.ext <;> simp

/-! ### The inputs -/

theorem State.linkInputs_iff {s : State} : s.linkInputs = true ↔ s.pins.linkup = true ∧ s.pins.fullDuplex = true := by
  simp [State.linkInputs]

theorem State.followInputs_up {s : State} (down : s.mac.link = .down) (inputs : s.linkInputs = true) :
    s.followInputs = s.moveUp := by
  simp only [State.followInputs, down, inputs]

theorem State.followInputs_down {s : State} (up : s.mac.link ≠ .down) (inputs : s.linkInputs = false) :
    s.followInputs = s.moveDown := by
  cases link : s.mac.link with
  | down => exact absurd link up
  | up speed => simp only [State.followInputs, link, inputs]

theorem State.followInputs_still {s : State} (agree : s.mac.link = .down ↔ s.linkInputs = false) :
    s.followInputs = s := by
  cases link : s.mac.link with
  | down => simp only [State.followInputs, link, agree.mp link]
  | up speed =>
    have inputs : s.linkInputs = true := by
      rw [← Bool.not_eq_false]
      exact fun none => absurd (agree.mpr none) (by simp [link])
    simp only [State.followInputs, link, inputs]

theorem State.compareInputs_up {s : State} (down : s.mac.link = .down) (inputs : s.linkInputs = true) :
    s.compareInputs = s.moveUp := by
  simp only [State.compareInputs, down, inputs]

theorem State.compareInputs_still {s : State} (other : s.mac.link ≠ .down ∨ s.linkInputs = false) :
    s.compareInputs = s := by
  cases link : s.mac.link with
  | up speed => cases inputs : s.linkInputs <;> simp only [State.compareInputs, link, inputs]
  | down => simp only [State.compareInputs, link, other.resolve_left (by simp [link])]

/-- An input that is at its level already does not change. -/
theorem State.setPhy_eq_self_iff {s : State} {input : PhyInput} {level : Bool} :
    s.setPhy input level = s ↔ s.phyLevel input = level := by
  constructor
  · intro same
    rw [← same]
    cases input <;> rfl
  · rintro rfl
    cases input <;> rfl

theorem State.closeEvent_congr {b b' s : State} (store : b'.store = b.store) (partition : b'.partition = b.partition) :
    State.closeEvent b' s = State.closeEvent b s := by
  unfold State.closeEvent State.releaseLost thresholdsChanged
  rw [store, partition]

/-- Settles O44: a change of an input, or its comparison, moves the link when they disagree. -/
theorem theLinkMoves : Obligations.TheLinkMoves := by
  intro s
  refine ⟨fun input level u changed => ?_, fun level u changed => ⟨fun same => ?_, fun other down => ?_, fun other up => ?_⟩,
    fun none => ?_, fun pending => ⟨fun down linkup duplex => ?_, fun other => ?_⟩⟩
  · have phy : u = s.setPhy input level := by
      rw [changed]
      cases input <;> rfl
    clear changed
    subst phy
    have store : (s.setPhy input level).store = s.store := by simp
    have partition : (s.setPhy input level).partition = s.partition := by simp
    have link : (s.setPhy input level).mac.link = s.mac.link := by simp
    have inputs : (s.setPhy input level).linkInputs = false ↔
        (s.setPhy input level).pins.linkup = false ∨ (s.setPhy input level).pins.fullDuplex = false := by
      simp only [State.linkInputs, Bool.and_eq_false_iff]
    refine ⟨fun same => if_pos (State.setPhy_eq_self_iff.mp same), fun other => ?_⟩
    have ran : exec (.phyInputChange input level) s =
        .next (State.closeEvent s (s.setPhy input level).followInputs) := if_neg (mt State.setPhy_eq_self_iff.mpr other)
    refine ⟨fun down linkup duplex => ⟨_, (s.setPhy input level).pinSpeed, ran, ?_⟩, fun up off => ⟨_, ran, ?_⟩, fun agree => ran.trans (congrArg _ ?_)⟩
    · rw [State.followInputs_up (link.trans down) (State.linkInputs_iff.mpr ⟨linkup, duplex⟩),
        State.closeEvent_moveUp store partition]
      exact State.moveUp_movedUp _
    · rw [State.followInputs_down (link ▸ up) (inputs.mpr off), ← State.closeEvent_congr store partition]
      exact State.moveDown_movedDown _
    · rw [State.followInputs_still (by rw [link, inputs]; exact agree)]
      exact State.closeEvent_same store (by rw [partition])
  · have at_ : s.pins.speed100 = level := by
      rw [← same, changed]
    exact if_pos at_
  · subst changed
    have new : ¬ s.pins.speed100 = level := fun e => other (by rw [← e])
    refine (if_neg new).trans (congrArg _ ?_)
    have still : State.dropForSpeed { s with pins := { s.pins with speed100 := level } } =
        { s with pins := { s.pins with speed100 := level } } := by
      simp only [State.dropForSpeed, down]
    rw [still]
    exact State.closeEvent_same rfl rfl
  · subst changed
    have new : ¬ s.pins.speed100 = level := fun e => other (by rw [← e])
    refine ⟨_, if_neg new, ?_⟩
    have moved : State.dropForSpeed { s with pins := { s.pins with speed100 := level } } = State.moveDown
        { s with pins := { s.pins with speed100 := level }, mac := { s.mac with comparePending := true } } := by
      cases link : s.mac.link with
      | down => exact absurd link up
      | up speed => simp only [State.dropForSpeed, link]
    rw [moved, ← State.closeEvent_congr (b := s) (b' := { s with
      pins := { s.pins with speed100 := level }, mac := { s.mac with comparePending := true } }) rfl rfl]
    exact State.moveDown_movedDown _
  · simp only [exec, execLinkInputCompare, none]
    rfl
  · refine ⟨_, _, (if_pos pending).trans (congrArg _ (State.compareInputs_up ?_ ?_)), State.moveUp_movedUp _⟩
    · exact down
    · exact State.linkInputs_iff.mpr ⟨linkup, duplex⟩
  · refine (if_pos pending).trans (congrArg _ (State.compareInputs_still (other.imp_right fun off => ?_)))
    simp only [State.linkInputs, Bool.and_eq_false_iff]
    exact off

end Sys2Proof.Machine
end

section
/-! An installation closed as an event, and the ends of a proposal (R108, R154 to R161). -/

namespace Sys2Proof.Machine

/-! ### What an installation counts and signals -/

@[simp] theorem State.install_stationCounters (s : State) (n : Half) (r : PartitionRecord) (q : Station) :
    (s.install n r).stationCounters.get q = { s.stationCounters.get q with
      expired := satAdd (s.stationCounters.get q).expired (expiredAt s r q) } := by
  have everywhere : ∀ x : State, (x.raiseFlagEverywhere .partition).stationCounters = x.stationCounters := by simp
  rw [State.install_eq, everywhere, State.expireAtInstallation_written]
  split
  · next h =>
    have e := fun q => expiredAt_eq (n := n) q h
    simp only [State.expireQueue_stationCounters, Per.get_set, reduceCtorEq, if_false,
      State.expireQueue_expiring, ne_eq, not_false_eq_true, ← e]
    cases q <;> rfl
  · next h =>
    rw [expiredAt_eq_zero q h, satAdd_zero]
    rfl

theorem Signals.install (s : State) (n : Half) (r : PartitionRecord) (q : Station) :
    Signals s (s.install n r) q fun f => f = .partition ∨ (f = .expired ∧ 0 < expiredAt s r q) := by
  have written : Signals s (s.written n r) q fun _ => False := Signals.quiet rfl rfl rfl rfl
  have expired : Signals s ((s.written n r).expireAtInstallation s.partition.installed.holdLimit) q
      fun f => f = .expired ∧ 0 < expiredAt s r q := by
    rw [State.expireAtInstallation_written]
    split
    · next h =>
      have e := fun q => expiredAt_eq (n := n) q h
      refine Signals.congr ((((written.trans (Signals.expireQueue _ .s0 q)).trans
        (Signals.expireQueue _ .s1 q)).trans (Signals.expireQueue _ .s2 q)).trans (Signals.expireQueue _ .s3 q))
        fun f => ?_
      simp only [State.expireQueue_expiring, ne_eq, reduceCtorEq, not_false_eq_true, ← e]
      cases q <;> simp
    · next h => exact written.congr fun f => by simp [expiredAt_eq_zero q h]
  rw [State.install_eq]
  exact (expired.trans (Signals.raiseFlagEverywhere _ .partition q)).congr fun f => or_comm

/-! ### An installation as an event -/

/-- An event that changes the sessions and the Partition Unit without a word to the generator, installs a record and
closes, has installed the record. -/
theorem State.install_installed {b : State} {v : Per Session} {u : PartitionUnit}
    (same : u.installed = b.partition.installed)
    (session : ∀ q, ({ b with sessions := v } : State).inSession q = b.inSession q) (n : Half) (r : PartitionRecord) :
    Installed b (State.closeEvent b (({ b with sessions := v, partition := u } : State).install n r)) n r := by
  have partition := State.install_partition { b with sessions := v, partition := u } n r
  have expires : expiredAt { b with sessions := v, partition := u } r = expiredAt b r :=
    funext fun q => by rw [expiredAt, expiredAt, same]
  have closed : (State.closeEvent b (({ b with sessions := v, partition := u } : State).install n r)).partition =
      (({ b with sessions := v, partition := u } : State).install n r).partition := by simp
  refine ⟨?_, ?_, ?_, ?_, fun q => ?_, fun q => ?_, fun q => ?_, ?_, ?_, ?_⟩
  · rw [closed, partition]
  · rw [closed, partition]
  · rw [closed, partition]
  · rw [closed, partition]
  · simp [State.install_intake, expires]
  · simp [expires]
  · have signals := (Signals.install { b with sessions := v, partition := u } n r q).after_quiet (s := b) rfl rfl rfl
      (session q)
    rw [expires] at signals
    exact ((signals.then_quiet (u := State.closeEvent b _) (by simp) (by simp) (by simp)
      (State.inSession_of_sessions (by simp) q)).flags (by simp)).congr fun f => or_assoc
  · refine State.closeEvent_holdsRemoved (fun k => ?_) (by simp) (by simp)
    rw [State.install_frame, expires]
    rfl
  · exact State.closeEvent_answers (c := b) (by simp) rfl rfl
  · simp

theorem HoldsRemoved.of_store {s t t' : State} {left : Handle → Holds} (h : HoldsRemoved s t left)
    (same : t'.store = t.store) : HoldsRemoved s t' left := by
  have frames : ∀ k, t'.frame k = t.frame k := fun k => State.frame_of_frames (congrArg FrameStore.frames same) k
  exact ⟨fun k => (frames k).symm ▸ h.unheld k, fun k => (frames k).symm ▸ h.released k,
    fun k => (frames k).symm ▸ h.kept k, same ▸ h.freeList, same ▸ h.mem⟩

/-- An installation says nothing of the ports. -/
theorem Installed.withPorts {s t : State} {n : Half} {r : PartitionRecord} (h : Installed s t n r) (w : Per Port) :
    Installed s { t with ports := w } n r :=
  ⟨h.installed, h.recordNumber, h.proposal, h.lastOutcome, h.intake, h.counters, h.flags, h.holds.of_store rfl,
    h.mac.to_eq rfl rfl rfl rfl, h.kept⟩

/-! ### An abandonment -/

theorem State.abandon_eq (s : State) (o : Proposal) : s.abandon o =
    { s with
      partition := { s.partition with proposal := none, lastOutcome := some (.abandoned o.number) },
      attention := (s.abandon o).attention } := State.raiseFlagAt_eq _ _ _

theorem State.abandon_raised (s : State) (o : Proposal) :
    Raised s (s.abandon o) .abandoned fun q => q = o.proposer ∨ inSet o.required q = true := by
  have raised := State.raiseFlagAt_raised { s with partition := { s.partition with
      proposal := none, lastOutcome := some (.abandoned o.number) } } .abandoned
    (insertStation o.required o.proposer)
  refine (Raised.congr raised fun q => ?_).of_eq rfl rfl
  rw [inSet_insert, Bool.or_eq_true, decide_eq_true_iff]
  tauto

/-! ### PROPOSE -/

theorem effectOf_propose (p : Station) (record : PartitionRecord) :
    effectOf .propose p (recordBytes record) = proposeEffect p record := by
  simp only [effectOf, recordOfBytes_recordBytes]

theorem recordValid_iff {record : PartitionRecord} : recordValid record = true ↔
    (∀ q, (record.share.get q).quota.toNat ≤ 512 ∧ (record.share.get q).allowance.toNat ≤ 64 ∧
        1 ≤ (record.share.get q).weight.toNat ∧ (record.share.get q).weight.toNat ≤ 16) ∧
      record.reserve.toNat ≤ 64 ∧ record.pauseOn.toNat ≤ 511 ∧ 1 ≤ record.pauseOff.toNat ∧
      record.pauseOff.toNat ≤ 512 ∧ 1 ≤ record.quanta.toNat ∧ record.holdLimit.toNat ≤ 4095 ∧
      (record.share.get .s0).allowance.toNat + (record.share.get .s1).allowance.toNat +
        (record.share.get .s2).allowance.toNat + (record.share.get .s3).allowance.toNat ≤ 64 ∧
      record.pauseOn.toNat < record.pauseOff.toNat := by
  have shares : (Station.all.all fun p => shareValid (record.share.get p)) = true ↔
      ∀ q, shareValid (record.share.get q) = true := by
    simp [List.all_eq_true, Station.mem_all]
  have sum : allowanceSum record = (record.share.get .s0).allowance.toNat + (record.share.get .s1).allowance.toNat +
      (record.share.get .s2).allowance.toNat + (record.share.get .s3).allowance.toNat := by
    simp [allowanceSum, Station.all, Nat.add_assoc]
  rw [recordValid, Bool.and_eq_true, shares, decide_eq_true_iff, sum]
  simp only [shareValid, decide_eq_true_iff]
  refine and_congr_right fun _ => ?_
  omega

theorem requiredFor_eq {s : State} {p : Station} {required : StationSet}
    (h : ∀ q, inSet required q = (decide ((s.session q).state = .active) && decide (q ≠ p))) :
    s.requiredFor p = required := by
  refine set_ext fun q => ?_
  rw [h, State.requiredFor, inSet_stationsWhere]
  simp [State.isActive, Bool.beq_eq_decide_eq, bne]

theorem State.propose_installs {s : State} {p : Station} {record : PartitionRecord} (alone : s.requiredFor p = 0) :
    s.propose p record = s.advanceCounter.install (nextProposalNumber s.partition.counter) record := if_pos alone

/-- The hub with a proposal opened, before its flag is raised. -/
def State.opened (s : State) (p : Station) (record : PartitionRecord) : State :=
  { s.advanceCounter with partition := { s.advanceCounter.partition with proposal := some (s.newProposal p record) } }

theorem State.propose_opens {s : State} {p : Station} {record : PartitionRecord} (others : s.requiredFor p ≠ 0) :
    s.propose p record = (s.opened p record).raiseFlagAt .proposal (s.requiredFor p) := if_neg others

/-- Settles O46: a PROPOSE is refused, opens the proposal, or installs it when no station is required. -/
theorem proposeOpensOrInstalls : Obligations.ProposeOpensOrInstalls := by
  intro p record s carries active
  have allowed : (s.session p).state ∈ sessionsFor .propose := by simp [active, sessionsFor]
  refine ⟨recordValid_iff, fun opened => ?_, fun closed invalid => ?_, fun number required closed valid next whom => ?_⟩
  · refine exec_answers s (refuse .propose .busy) rfl rfl carries allowed ?_
    rw [effectOf_propose, proposeEffect, if_pos (Option.isSome_iff_ne_none.mpr opened)]
  · refine exec_answers s (refuse .propose .badArg) rfl rfl carries allowed ?_
    simp [effectOf_propose, proposeEffect, closed, invalid]
  have next : nextProposalNumber s.partition.counter = number := next.symm
  have required_ : s.requiredFor p = required := requiredFor_eq whom
  obtain ⟨t, ran, answered, same⟩ := exec_answers (i := .propose p record) (State.closeEvent s (s.propose p record))
    (answer (halfBytes number ++ [yesNo (required == 0)])) rfl rfl carries allowed (by
      simp [effectOf_propose, proposeEffect, closed, valid, next, required_])
  refine ⟨fun alone => ⟨t, ran, ?_, ?_, ?_, ?_⟩, fun others => ⟨t, ran, ?_, ?_, ?_⟩⟩
  · exact answered.congr (by simp [alone]; rfl)
  · have installed := State.install_installed (b := s) (v := s.sessions) (u := s.advanceCounter.partition) rfl
      (fun _ => rfl) number record
    rw [same, State.propose_installs (required_.trans alone), next]
    exact installed.withPorts _
  · rw [same, State.propose_installs (required_.trans alone)]
    simp [State.advanceCounter, next]
  · rw [same]
    simp
  all_goals
    have unstored : State.closeEvent s (s.propose p record) = (s.opened p record).raiseFlagAt .proposal required := by
      rw [State.propose_opens (required_ ▸ others), required_]
      exact State.closeEvent_same (by simp [State.opened]) (by simp [State.opened])
  · exact answered.congr (by rw [beq_false_of_ne others]; rfl)
  · rw [same, unstored]
    exact (((s.opened p record).raiseFlagAt_raised .proposal required).of_eq rfl rfl).to_eq rfl
  · rw [same, unstored, State.raiseFlagAt_eq]
    simp [State.opened, State.advanceCounter, State.newProposal, next, required_, proposalLife, unitsPerMs]

/-! ### ENDORSE, OBJECT and the expiry -/

section
variable {s : State} {p : Station} {number : Half} {o : Proposal}

theorem State.voice_stale (other : ∀ o, s.partition.proposal = some o → o.number ≠ number) :
    s.voice p number = .error .stale := by
  unfold State.voice
  split
  · rfl
  · next o opened => exact if_pos (other o opened)

theorem State.voice_notNeeded (opened : s.partition.proposal = some o) (named : o.number = number)
    (unneeded : inSet o.required p = false ∨ inSet o.endorsed p = true) : s.voice p number = .error .notNeeded := by
  have none : (inSet o.required p && !inSet o.endorsed p) = false := by
    rcases unneeded with h | h <;> simp [h]
  simp [State.voice, opened, named, none]

theorem State.voice_needed (opened : s.partition.proposal = some o) (named : o.number = number)
    (required : inSet o.required p = true) (silent : inSet o.endorsed p = false) : s.voice p number = .ok o := by
  simp [State.voice, opened, named, required, silent]

theorem effectOf_endorse (p : Station) (number : Half) :
    effectOf .endorse p (halfBytes number) = endorseEffect p number := by
  simp only [effectOf, inHalf_halfBytes]

theorem effectOf_object (p : Station) (number : Half) :
    effectOf .object p (halfBytes number) = objectEffect p number := by
  simp only [effectOf, inHalf_halfBytes]

/-- Both voices are refused alike. -/
theorem exec_voice_refused {c : Command} {i : Instr} {r : Result} (row : commandInput i = some (p, c, halfBytes number))
    (wf : i.wf = true) (carries : Carries s p c (halfBytes number)) (active : (s.session p).state = .active)
    (voices : c = .endorse ∨ c = .object) (refused : s.voice p number = .error r) :
    ∃ t, exec i s = .next t ∧ Answered s t p c r [] ∧ t = { s with ports := t.ports } := by
  have silent : refuse c r = { result := r, response := [], reading := none } := by
    rcases voices with rfl | rfl <;> rfl
  have allowed : (s.session p).state ∈ sessionsFor c := by
    rcases voices with rfl | rfl <;> simp [active, sessionsFor]
  have effect : effectOf c p (halfBytes number) s = (s, refuse c r) := by
    rcases voices with rfl | rfl
    · simp only [effectOf_endorse, endorseEffect, refused]
    · simp only [effectOf_object, objectEffect, refused]
  obtain ⟨t, ran, answered, same⟩ := exec_answers s (refuse c r) row wf carries allowed effect
  rw [silent] at answered
  exact ⟨t, ran, answered, same⟩

/-- A proposal that still lacks a voice stays open, and no event closes over it. -/
theorem State.closeEvent_settleProposal_open (lacking : o.endorsed ≠ o.required) :
    State.closeEvent s (s.settleProposal o) = { s with partition := { s.partition with proposal := some o } } := by
  rw [State.settleProposal, if_neg lacking]
  exact State.closeEvent_same rfl rfl

end

/-- Settles O47: a voice is stale, not needed, or counted; the last one installs, an objection abandons, and so does
the expiry. -/
theorem voicesAndExpiry : Obligations.VoicesAndExpiry := by
  refine fun s => ⟨fun p number active => ⟨fun carries => ⟨fun other => ?_, fun o opened named =>
      ⟨fun unneeded => ?_, fun required silent => ?_⟩⟩, fun carries => ⟨fun other => ?_, fun o opened named =>
      ⟨fun unneeded => ?_, fun required silent => ?_⟩⟩⟩, fun none => ?_, fun o opened => ?_⟩
  · exact exec_voice_refused rfl rfl carries active (.inl rfl) (State.voice_stale other)
  · exact exec_voice_refused rfl rfl carries active (.inl rfl) (State.voice_notNeeded opened named unneeded)
  · have allowed : (s.session p).state ∈ sessionsFor .endorse := by simp [active, sessionsFor]
    have voice := State.voice_needed opened named required silent
    obtain ⟨t, ran, answered, same⟩ := exec_answers (i := .endorse p number)
      (State.closeEvent s (s.settleProposal { o with endorsed := insertStation o.endorsed p })) (answer []) rfl rfl
      carries allowed (by simp only [effectOf_endorse, endorseEffect, voice])
    refine ⟨fun complete => ⟨t, ran, answered, ?_, ?_, ?_⟩, fun lacking => ⟨t, ran, answered, ?_⟩⟩
    · rw [same, State.settleProposal, if_pos complete]
      exact (State.install_installed (b := s) (v := s.sessions) (u := s.partition) rfl (fun _ => rfl) _ _).withPorts _
    · rw [same, State.settleProposal, if_pos complete]
      simp
    · rw [same]
      simp
    · rw [same, State.closeEvent_settleProposal_open lacking]
  · exact exec_voice_refused rfl rfl carries active (.inr rfl) (State.voice_stale other)
  · exact exec_voice_refused rfl rfl carries active (.inr rfl) (State.voice_notNeeded opened named unneeded)
  · have allowed : (s.session p).state ∈ sessionsFor .object := by simp [active, sessionsFor]
    have voice := State.voice_needed opened named required silent
    obtain ⟨t, ran, answered, same⟩ := exec_answers (i := .object p number) (s.abandon o) (answer []) rfl rfl
      carries allowed (by simp only [effectOf_object, objectEffect, voice])
    refine ⟨t, ran, answered, ?_, ?_⟩
    · rw [same]
      exact (s.abandon_raised o).to_eq rfl
    · rw [same, State.abandon_eq]
  · simp only [exec, execProposalExpiry, none]
  · refine ⟨(s.reach o.expiry).abandon o, by simp only [exec, execProposalExpiry, opened], ?_, ?_⟩
    · exact ((s.reach o.expiry).abandon_raised o).of_eq rfl rfl
    · rw [State.abandon_eq]
      rfl

/-! ### SUSPEND -/

section
variable {s : State} {p : Station} {o : Proposal}

theorem State.departActive_proposer (opened : s.partition.proposal = some o) (proposer : o.proposer = p) :
    s.departActive p = s.abandon o := by
  simp [State.departActive, opened, proposer]

theorem State.departActive_required (opened : s.partition.proposal = some o) (other : o.proposer ≠ p)
    (required : inSet o.required p = true) : s.departActive p =
      s.settleProposal { o with required := eraseStation o.required p, endorsed := eraseStation o.endorsed p } := by
  simp [State.departActive, opened, other, required]

theorem State.departActive_unconcerned (unconcerned : ¬ concerned s p) : s.departActive p = s := by
  unfold State.departActive
  split
  · rfl
  · next o opened =>
    have other : o.proposer ≠ p := fun proposer => unconcerned ⟨o, opened, .inl proposer⟩
    have free : inSet o.required p ≠ true := fun required => unconcerned ⟨o, opened, .inr required⟩
    rw [if_neg other, if_neg free]

end

/-- What R167 says of the stations in session is the same of a hub with the same stations in session. -/
theorem Raised.of_inSession {s s' t : State} {f : Flag} {who : Station → Prop} (r : Raised s' t f who)
    (attention : s'.attention = s.attention) (session : ∀ q, s'.inSession q = s.inSession q) : Raised s t f who := by
  intro q
  have raised := r q
  rwa [attention, session] at raised

/-- The hub with a station put to sleep, before the open proposal learns of it. -/
def State.putToSleep (s : State) (p : Station) : State := s.setSession p { s.session p with state := .suspended }

theorem State.putToSleep_inSession {s : State} {p : Station} (active : (s.session p).state = .active) (q : Station) :
    (s.putToSleep p).inSession q = s.inSession q := by
  by_cases own : q = p
  · subst own
    simp [State.putToSleep, State.inSession, State.session, State.setSession] at active ⊢
    rw [active]
    rfl
  · simp [State.putToSleep, State.inSession, State.session, State.setSession, Per.get_set, own]

theorem effectOf_suspend (p : Station) (s : State) : effectOf .suspend p [] s =
    (State.closeEvent s ((s.putToSleep p).departActive p), answer []) := rfl

/-- Settles O16: SUSPEND puts the station to sleep, and the open proposal goes on without it. -/
theorem suspendPutsToSleep : Obligations.SuspendPutsToSleep := by
  intro p s carries active
  have allowed : (s.session p).state ∈ sessionsFor .suspend := by simp [active, sessionsFor]
  obtain ⟨t, ran, answered, same⟩ := exec_answers (i := .suspend p) _ _ rfl rfl carries allowed (effectOf_suspend p s)
  have sessions : t.sessions = s.sessions.set p { s.session p with state := .suspended } := by
    rw [same]; simp [State.putToSleep, State.setSession]
  have departed : Departed s t p := (State.departActive_departed (s := s) (u := s.putToSleep p) p rfl).to_eq (congrArg State.partition same |>.trans (by simp))
  refine ⟨t, ran, answered, sessions, departed, fun unconcerned => ?_, fun o opened proposer => ?_,
    fun o opened other required => ⟨fun lacking => ?_, fun complete => ?_⟩⟩
  · have still : State.closeEvent s ((s.putToSleep p).departActive p) = s.putToSleep p := by
      rw [State.departActive_unconcerned (s := s.putToSleep p) unconcerned]
      exact State.closeEvent_same rfl rfl
    rw [same, still]
    rfl
  · have abandons : State.closeEvent s ((s.putToSleep p).departActive p) = (s.putToSleep p).abandon o := by
      rw [State.departActive_proposer (s := s.putToSleep p) opened proposer]
      exact State.closeEvent_same (by simp [State.putToSleep]) (by simp [State.putToSleep])
    refine ⟨?_, ?_⟩
    · rw [same, abandons, State.abandon_eq]
      rfl
    · rw [same, abandons]
      refine Raised.congr (who := fun q => q = o.proposer ∨ inSet o.required q = true) ?_ fun q => by rw [proposer]
      exact (((s.putToSleep p).abandon_raised o).of_inSession (s := s) rfl (State.putToSleep_inSession active)).to_eq rfl
  · have stays : State.closeEvent s ((s.putToSleep p).departActive p) =
        { s.putToSleep p with partition := ((s.putToSleep p).departActive p).partition } := by
      rw [State.departActive_required (s := s.putToSleep p) opened other required, State.settleProposal, if_neg lacking]
      exact State.closeEvent_same rfl rfl
    rw [same, stays]
    rfl
  · have installs : (s.putToSleep p).departActive p = (s.putToSleep p).install o.number o.record := by
      rw [State.departActive_required (s := s.putToSleep p) opened other required, State.settleProposal, if_pos complete]
    rw [same, installs]
    exact (State.install_installed (b := s) (v := (s.putToSleep p).sessions) (u := s.partition) rfl
      (State.putToSleep_inSession active) _ _).withPorts _

end Sys2Proof.Machine
end

section
/-! The end of a session, by LEAVE and by loss of PRESENT (R68, R77 to R83). -/

namespace Sys2Proof.Machine

/-! ### The owned entries -/

theorem inSet_activeTargets {e : Entry} {q : Station} : inSet e.activeTargets q = true ↔
    e.state = .active ∧ ∃ c, e.contents = some c ∧ inSet c.targets q = true := by
  unfold Entry.activeTargets
  split
  · next active some => simp [active, some]
  · next other =>
    rw [show inSet 0 q = false from inSet_empty q]
    refine iff_of_false nofun ?_
    rintro ⟨active, c, some, -⟩
    exact other c active some

theorem State.ownsActive_iff {s : State} {p : Station} :
    s.ownsActive p = true ↔ ∃ i, (s.entry i).owner = some p ∧ (s.entry i).state = .active := by
  rw [State.ownsActive, List.any_eq_true]
  constructor
  · rintro ⟨e, row, owned⟩
    obtain ⟨i, rfl⟩ := Table.mem_rows.mp row
    exact ⟨i, by simpa [State.entry] using owned⟩
  · rintro ⟨i, owned⟩
    exact ⟨s.entry i, Table.mem_rows.mpr ⟨i, rfl⟩, by simpa using owned⟩

theorem inSet_foldl_owned (p q : Station) (rows : List Entry) (acc : StationSet) :
    inSet (rows.foldl (fun acc e => if e.owner = some p then acc ||| e.activeTargets else acc) acc) q = true ↔
      inSet acc q = true ∨ ∃ e ∈ rows, e.owner = some p ∧ inSet e.activeTargets q = true := by
  induction rows generalizing acc with
  | nil => simp
  | cons e rows ih =>
    rw [List.foldl_cons, ih]
    by_cases owned : e.owner = some p <;> simp [owned, or_assoc]

theorem State.inSet_ownedTargets {s : State} {p q : Station} : inSet (s.ownedTargets p) q = true ↔
    ∃ i c, (s.entry i).owner = some p ∧ (s.entry i).state = .active ∧ (s.entry i).contents = some c ∧
      inSet c.targets q = true := by
  have nobody : inSet 0 q = false := inSet_empty q
  rw [State.ownedTargets, inSet_foldl_owned]
  simp only [nobody, Bool.false_eq_true, false_or, Table.mem_rows, inSet_activeTargets]
  constructor
  · rintro ⟨e, ⟨i, rfl⟩, owned, active, c, some, target⟩
    exact ⟨i, c, owned, active, some, target⟩
  · rintro ⟨i, c, owned, active, some, target⟩
    exact ⟨s.entry i, ⟨i, rfl⟩, owned, active, c, some, target⟩

/-! ### What a departure counts and signals -/

theorem departureInstalls_required {s : State} {p : Station} {o : Proposal} (opened : s.partition.proposal = some o)
    (other : o.proposer ≠ p) (required : inSet o.required p = true) : departureInstalls s p =
      if eraseStation o.endorsed p = eraseStation o.required p then some o.record else none := by
  simp [departureInstalls, opened, other, required]

theorem departureInstalls_none {s : State} {p : Station}
    (none : ∀ o, s.partition.proposal = some o → o.proposer = p ∨ inSet o.required p ≠ true) :
    departureInstalls s p = .none := by
  unfold departureInstalls
  split
  · rfl
  · next o opened => exact if_neg fun ⟨other, required, _⟩ => (none o opened).elim other (· required)

theorem departingExpires_none {s : State} {p q : Station} (none : departureInstalls s p = .none) :
    departingExpires s p q = 0 := by
  rw [departingExpires, none]

theorem departingExpires_some {s : State} {p q : Station} {r : PartitionRecord} (installs : departureInstalls s p = some r) :
    departingExpires s p q = expiredAt s r q := by
  rw [departingExpires, installs]

/-- The four things that a departure can do: nothing, abandon the station's own proposal, install the proposal that
waited for the station alone, or take the station out of the proposal. -/
inductive Departing (s : State) (p : Station) : State → Prop
  | nothing (none : departureInstalls s p = .none) (kept : ¬ concerned s p) : Departing s p s
  | abandons (o : Proposal) (opened : s.partition.proposal = some o) (proposer : o.proposer = p)
      (none : departureInstalls s p = .none) : Departing s p (s.abandon o)
  | installs (o : Proposal) (opened : s.partition.proposal = some o) (other : o.proposer ≠ p)
      (some : departureInstalls s p = some o.record) : Departing s p (s.install o.number o.record)
  | removes (o o' : Proposal) (opened : s.partition.proposal = some o) (other : o.proposer ≠ p)
      (none : departureInstalls s p = .none) :
      Departing s p { s with partition := { s.partition with proposal := some o' } }

theorem State.departActive_departing (s : State) (p : Station) : Departing s p (s.departActive p) := by
  by_cases concerns : concerned s p
  · obtain ⟨o, opened, why⟩ := concerns
    by_cases proposer : o.proposer = p
    · rw [State.departActive_proposer opened proposer]
      refine .abandons o opened proposer (departureInstalls_none fun o' opened' => ?_)
      cases opened.symm.trans opened'
      exact .inl proposer
    · have required : inSet o.required p = true := why.resolve_left proposer
      have installs := departureInstalls_required opened proposer required
      rw [State.departActive_required opened proposer required, State.settleProposal]
      split at installs
      · next complete =>
        rw [if_pos complete]
        exact .installs o opened proposer installs
      · next lacking =>
        rw [if_neg lacking]
        exact .removes o _ opened proposer installs
  · rw [State.departActive_unconcerned concerns]
    refine .nothing (departureInstalls_none fun o opened => ?_) concerns
    by_contra! h
    exact concerns ⟨o, opened, .inr h.2⟩

namespace Departing

variable {s u : State} {p : Station}

theorem stationCounters (d : Departing s p u) (q : Station) : u.stationCounters.get q = { s.stationCounters.get q with
    expired := satAdd (s.stationCounters.get q).expired (departingExpires s p q) } := by
  cases d with
  | nothing none => rw [departingExpires_none none, satAdd_zero]
  | abandons o opened proposer none => rw [departingExpires_none none, satAdd_zero]; simp
  | installs o opened other some => rw [departingExpires_some some, State.install_stationCounters]
  | removes o o' opened other none => rw [departingExpires_none none, satAdd_zero]

theorem signals (d : Departing s p u) (q : Station) : Signals s u q fun f =>
    (f = .abandoned ∧ ∃ o, s.partition.proposal = some o ∧ o.proposer = p ∧ (q = p ∨ inSet o.required q = true)) ∨
    (f = .partition ∧ departureInstalls s p ≠ none) ∨ (f = .expired ∧ 0 < departingExpires s p q) := by
  have only : ∀ {o : Proposal} {P : Proposal → Prop}, s.partition.proposal = some o →
      ((∃ o, s.partition.proposal = some o ∧ P o) ↔ P o) := fun opened => by simp [opened]
  cases d with
  | nothing none kept =>
    refine (Signals.quiet (q := q) rfl rfl rfl rfl).congr fun f => ?_
    have mine : ¬ ∃ o, s.partition.proposal = some o ∧ o.proposer = p ∧ (q = p ∨ inSet o.required q = true) :=
      fun ⟨o, opened, proposer, _⟩ => kept ⟨o, opened, .inl proposer⟩
    simp [mine, none, departingExpires_none none]
  | abandons o opened proposer none =>
    refine (Signals.of_raised (q := q) (s.abandon_raised o) (by simp) (by simp)
      (State.inSession_of_sessions (by simp) q)).congr fun f => ?_
    simp [only opened, proposer, none, departingExpires_none none]
  | installs o opened other some =>
    refine (Signals.install s o.number o.record q).congr fun f => ?_
    simp [only opened, other, some, departingExpires_some some]
  | removes o o' opened other none =>
    refine Signals.congr (Signals.quiet rfl rfl rfl rfl) fun f => ?_
    simp [only opened, other, none, departingExpires_none none]

end Departing

/-! ### The teardown -/

theorem State.teardown_stationCounters (s : State) (p q : Station) :
    (s.teardown p).stationCounters.get q = { s.stationCounters.get q with
      expired := satAdd (s.stationCounters.get q).expired (departureExpires s p q) } := by
  have counters := (State.departActive_departing (s.offline p) p).stationCounters q
  rw [departingExpires_offline] at counters
  simpa [State.teardown_eq] using counters

theorem departureInstalls_offline (s : State) (p : Station) :
    departureInstalls (s.offline p) p = departureInstalls s p := by
  simp [departureInstalls]

/-- What a teardown signals to the other stations. -/
theorem Signals.teardown (s : State) {p q : Station} (other : q ≠ p) : Signals s (s.teardown p) q fun f =>
    (f = .table ∧ tableEventReaches s p q) ∨ (f = .abandoned ∧ departureAbandons s p q) ∨
    (f = .partition ∧ departureInstalls s p ≠ none) ∨ (f = .expired ∧ 0 < departureExpires s p q) := by
  have retired : Signals s ((s.dropStationHolds p).retireOwned p) q fun f => f = .table ∧ tableEventReaches s p q := by
    refine Signals.congr ((Signals.raiseFlagAt _ .table _ q).after_quiet rfl rfl rfl rfl) fun f => ?_
    rw [State.inSet_tableEventTargets, State.inSet_ownedTargets]
    rfl
  have away : Signals s (s.offline p) q fun f => f = .table ∧ tableEventReaches s p q := by
    refine retired.then_quiet rfl rfl rfl ?_
    simp [State.offline, State.inSession, State.session, State.goOffline, other]
  have departed := (State.departActive_departing (s.offline p) p).signals q
  rw [departingExpires_offline, departureInstalls_offline] at departed
  have whole : Signals s (s.teardown p) q _ := (away.trans departed).then_quiet
    (by simp [State.teardown_eq, State.clearAttention, State.setAttention, Per.get_set_ne _ _ other])
    (by simp [State.teardown_eq]) (by simp [State.teardown_eq])
    (State.inSession_of_sessions (by simp [State.teardown_eq]) q)
  refine whole.congr fun f => ?_
  simp [departureAbandons, other]

/-- The teardown of a session as the end of an event: the pins and the ports are as they are when it begins. -/
theorem State.teardown_tornDown (s : State) (p : Station) (pins : Pins) (ports : Per Port) :
    TornDown s (State.closeEvent s (({ s with pins := pins, ports := ports } : State).teardown p)) p := by
  generalize closed : State.closeEvent s (({ s with pins := pins, ports := ports } : State).teardown p) = t
  have sessions : ∀ q, t.session q = (({ s with pins := pins, ports := ports } : State).teardown p).session q := by
    simp [← closed, State.session]
  have table : t.table = (({ s with pins := pins, ports := ports } : State).teardown p).table := by simp [← closed]
  have owns : ({ s with pins := pins, ports := ports } : State).ownsActive p = s.ownsActive p := rfl
  have drafts := (State.teardown_table { s with pins := pins, ports := ports } p).1
  have generation := (State.teardown_table { s with pins := pins, ports := ports } p).2
  refine ⟨?_, fun q other => ?_, fun i => ?_, ?_, fun live => ?_, fun none => ?_, ?_, ?_, ?_, ?_, fun k => ?_, ?_,
    fun q other => ?_, fun q => ?_, fun q other => ?_, ?_, ?_, ?_⟩
  · rw [sessions, State.teardown_session, if_pos rfl]
    rfl
  · rw [sessions, State.teardown_session, if_neg other]
    rfl
  · rw [State.entry_of_entries (congrArg SteeringTable.entries table), State.teardown_entry]
    rfl
  · rw [table, drafts]
  · rw [table, generation, owns, if_pos (State.ownsActive_iff.mpr live)]
  · rw [table, generation, owns, if_neg (mt State.ownsActive_iff.mp none)]
  · simp [← closed, State.teardown_intake_self]
  · simp [← closed]
  · simp [← closed, State.teardown_scheduler]
  · simp [← closed, State.teardown_eq, State.clearAttention, State.setAttention, Attention.reset]
  · rw [← closed, State.closeEvent_holds]
    exact State.teardown_heldBy _ p k
  · exact (State.departActive_departed (s := s) (u := State.offline { s with pins := pins, ports := ports } p) p
      (by simp)).to_eq (by simp [← closed, State.teardown_eq])
  · simp only [← closed, (State.closeEvent_keeps _ _).2.2.2.2.2.2.1, State.teardown_intake, State.teardownDrops, if_neg other]
    rfl
  · simp only [← closed, State.closeEvent_keeps, State.teardown_stationCounters]
    rfl
  · have signals := (Signals.teardown { s with pins := pins, ports := ports } other).after_quiet (s := s) rfl rfl rfl rfl
    have whole : Signals s t q _ := signals.then_quiet (by simp [← closed]) (by simp [← closed]) (by simp [← closed])
      (State.inSession_of_sessions (by simp [← closed]) q)
    refine (whole.flags (by simp [← closed])).congr fun f => ?_
    simp only [or_assoc]
    rfl
  · rw [← closed]
    exact State.closeEvent_holdsRemoved (fun k => State.teardown_frame _ p k) (by simp) (by simp)
  · rw [← closed]
    exact State.closeEvent_answers (c := s) (by simp) rfl rfl
  · simp [← closed]

/-- A teardown says nothing of the ports. -/
theorem TornDown.withPorts {s t : State} {p : Station} (h : TornDown s t p) (w : Per Port) :
    TornDown s { t with ports := w } p :=
  { h with
    partition := h.partition.to_eq rfl
    removed := h.removed.of_store rfl
    mac := h.mac.to_eq rfl rfl rfl rfl }

theorem effectOf_leave (p : Station) (s : State) : effectOf .leave p [] s =
    (State.closeEvent s (s.teardown p), answer []) := rfl

/-- Settles O14: LEAVE tears the session down, and its own transaction is answered. -/
theorem leaveTearsDown : Obligations.LeaveTearsDown := by
  intro p s carries online
  have allowed : (s.session p).state ∈ sessionsFor .leave := by
    cases state : (s.session p).state <;> simp_all [sessionsFor]
  obtain ⟨t, ran, answered, same⟩ := exec_answers (i := .leave p) _ _ rfl rfl carries allowed (effectOf_leave p s)
  have torn : TornDown s (State.closeEvent s (s.teardown p)) p := s.teardown_tornDown p s.pins s.ports
  refine ⟨t, ran, answered, ?_, ?_⟩
  · rw [same]
    exact torn.withPorts _
  · rw [same]
    simp [State.teardown_eq]

/-- Settles O15: a fall of PRESENT ends a session and abandons its transaction; a rise changes the level alone. -/
theorem presentLine : Obligations.PresentLine := by
  refine fun p s => ⟨fun online => ?_, fun offline => ?_, rfl⟩
  · have into : s.inSession p = true := by simp [State.inSession, online]
    have ran : exec (.presentFall p) s = .next (State.closeEvent s ((s.setPresent p false).endSession p)) := by
      simp only [exec, execPresentFall, into, if_true]
      exact congrArg _ (State.closeEvent_congr rfl rfl)
    have ports : (State.closeEvent s ((s.setPresent p false).endSession p)).ports =
        s.ports.set p (s.ports.get p).abandon := by
      simp [State.endSession]
    refine ⟨_, ran, s.teardown_tornDown p (s.setPresent p false).pins (s.ports.set p (s.ports.get p).abandon), ?_,
      fun q other => ?_, fun idle => ?_, fun busy => ?_⟩
    · simp [State.setPresent]
    · rw [ports, Per.get_set_ne _ _ other]
    · rw [ports, Per.get_set_self, Port.abandon, if_pos idle]
    · rw [ports, Per.get_set_self, Port.abandon, if_neg busy]
      exact ⟨rfl, rfl, rfl, rfl⟩
  · have out : s.inSession p = false := by simp [State.inSession, offline]
    simp only [exec, execPresentFall, out]
    rfl

end Sys2Proof.Machine
end

section
/-! The check sequence, and a link frame stored byte by byte (R85, R86, R138). -/

namespace Sys2Proof.Machine

/-! ### The check sequence -/

theorem crcBit_eq (r : Word) (bit : Bool) :
    crcBit r bit = if r.getLsbD 31 = bit then r <<< 1 else (r <<< 1) ^^^ 0x04C11DB7 := by
  unfold crcBit
  cases r.getLsbD 31 <;> cases bit <;> rfl

theorem crcByte_eq (r : Word) (b : Byte) : crcByte r b =
    crcBit (crcBit (crcBit (crcBit (crcBit (crcBit (crcBit (crcBit r (b.getLsbD 0)) (b.getLsbD 1))
      (b.getLsbD 2)) (b.getLsbD 3)) (b.getLsbD 4)) (b.getLsbD 5)) (b.getLsbD 6)) (b.getLsbD 7) := rfl

theorem checkBytes_eq (fcs : Word) : checkBytes fcs =
    [(BitVec.ofNat 8 (fcs.toNat / 256 / 256 / 256)).reverse, (BitVec.ofNat 8 (fcs.toNat / 256 / 256)).reverse,
      (BitVec.ofNat 8 (fcs.toNat / 256)).reverse, (BitVec.ofNat 8 fcs.toNat).reverse] := rfl

/-- A bit of a byte taken out of a word and reversed. -/
theorem getLsbD_reverse_byte (fcs : Word) (n : Nat) {k : Nat} (bit : k < 8) :
    ((BitVec.ofNat 8 (fcs.toNat / 2 ^ n)).reverse).getLsbD k = fcs.getLsbD (n + (7 - k)) := by
  rw [BitVec.getLsbD_reverse, BitVec.getMsbD_eq_getLsbD]
  simp only [bit, decide_true, Bool.true_and, BitVec.getLsbD_ofNat, show 8 - 1 - k = 7 - k from rfl]
  rw [Nat.testBit_div_two_pow, Nat.add_comm]
  simp [show 7 - k < 8 by omega, BitVec.getLsbD]

/-- The bits of a check sequence are sent from the highest power down. -/
theorem getLsbD_checkBytes (fcs : Word) {j k : Nat} (byte : j < 4) (bit : k < 8) :
    (inByte (checkBytes fcs) j).getLsbD k = fcs.getLsbD (31 - (8 * j + k)) := by
  have bits := fun n => getLsbD_reverse_byte fcs n bit
  rw [checkBytes_eq]
  match j, byte with
  | 0, _ => simpa [Nat.div_div_eq_div_mul, inByte, show 24 + (7 - k) = 31 - k by omega] using bits 24
  | 1, _ => simpa [Nat.div_div_eq_div_mul, inByte, show 16 + (7 - k) = 31 - (8 + k) by omega] using bits 16
  | 2, _ => simpa [inByte, show 8 + (7 - k) = 31 - (16 + k) by omega] using bits 8
  | 3, _ => simpa [inByte, show 7 - k = 31 - (24 + k) by omega] using bits 0

/-- What the register keeps of the bits taken in after the part that the register itself gave is shifted out. -/
def crcTail : Nat → Word
  | 0 => 0
  | k + 1 => crcBit (crcTail k) true

/-- The register after so many bits of its own check sequence. -/
def crcAfter (r : Word) (k : Nat) : Word := r <<< k ^^^ crcTail k

theorem crcAfter_zero (r : Word) : crcAfter r 0 = r := by simp [crcAfter, crcTail]

theorem crcTail_residue : crcTail 32 = 0xC704DD7B := by decide +kernel

theorem crcAfter_residue (r : Word) : crcAfter r 32 = 0xC704DD7B := by
  have out : r <<< 32 = 0 := by simp
  rw [crcAfter, crcTail_residue, out]
  rfl

theorem crcBit_crcAfter (r : Word) {k : Nat} (room : k < 32) :
    crcBit (crcAfter r k) (!r.getLsbD (31 - k)) = crcAfter r (k + 1) := crcBit_shift r (crcTail k) k room

/-- A byte of its own check sequence, taken into the register. -/
theorem crcByte_crcAfter (r : Word) (b : Byte) (j : Nat) (byte : j < 4)
    (bits : ∀ i < 8, b.getLsbD i = !r.getLsbD (31 - (8 * j + i))) :
    crcByte (crcAfter r (8 * j)) b = crcAfter r (8 * (j + 1)) := by
  have shift : ∀ i n, i < 8 → 8 * j + i = n → crcBit (crcAfter r n) (b.getLsbD i) = crcAfter r (8 * j + (i + 1)) := by
    rintro i n bit rfl
    rw [bits i bit]
    exact crcBit_crcAfter r (by omega)
  rw [crcByte_eq, shift 0 (8 * j) (by decide) rfl, shift 1 _ (by decide) rfl, shift 2 _ (by decide) rfl,
    shift 3 _ (by decide) rfl, shift 4 _ (by decide) rfl, shift 5 _ (by decide) rfl, shift 6 _ (by decide) rfl,
    shift 7 _ (by decide) rfl]
  rfl

/-- A register that has taken in its own check sequence holds the residue. -/
theorem foldl_crcByte_checkBytes (r : Word) : (checkBytes (checkSequenceOf r)).foldl crcByte r = 0xC704DD7B := by
  have sent : ∀ j < 4, ∀ i < 8, (inByte (checkBytes (checkSequenceOf r)) j).getLsbD i = !r.getLsbD (31 - (8 * j + i)) :=
    fun j byte i bit => by
      rw [getLsbD_checkBytes _ byte bit, checkSequenceOf, BitVec.getLsbD_not]
      simp [show 31 - (8 * j + i) < 32 by omega]
  have taken : ∀ j (byte : j < 4), crcByte (crcAfter r (8 * j)) (inByte (checkBytes (checkSequenceOf r)) j) =
      crcAfter r (8 * (j + 1)) := fun j byte => crcByte_crcAfter r _ j byte (sent j byte)
  calc (checkBytes (checkSequenceOf r)).foldl crcByte r
      = crcByte (crcByte (crcByte (crcByte (crcAfter r 0) (inByte (checkBytes (checkSequenceOf r)) 0))
          (inByte (checkBytes (checkSequenceOf r)) 1)) (inByte (checkBytes (checkSequenceOf r)) 2))
          (inByte (checkBytes (checkSequenceOf r)) 3) := by rw [crcAfter_zero, checkBytes_eq]; rfl
    _ = crcAfter r 32 := by
      rw [show crcAfter r 0 = crcAfter r (8 * 0) from rfl, taken 0 (by decide), taken 1 (by decide), taken 2 (by decide),
        taken 3 (by decide)]
    _ = 0xC704DD7B := crcAfter_residue r

/-! ### The start of a link frame -/

theorem exec_frameStart_requested {s : State} (up : s.mac.link ≠ .down) (idle : s.mac.receiver = .idle) :
    exec .frameStart s = .next s.requestSlot := by
  cases link : s.mac.link with
  | down => exact absurd link up
  | up speed => simp only [exec, execFrameStart, link, idle]

theorem exec_frameStart_ignored {s : State} (other : s.mac.link = .down ∨ s.mac.receiver ≠ .idle) :
    exec .frameStart s = .next s := by
  cases link : s.mac.link with
  | down => simp only [exec, execFrameStart, link]
  | up speed =>
    have busy := other.resolve_left (by simp [link])
    cases receiver : s.mac.receiver with
    | idle => exact absurd receiver busy
    | storing h => simp only [exec, execFrameStart, link, receiver]
    | skipping => simp only [exec, execFrameStart, link, receiver]

theorem State.requestSlot_refused {s : State} (full : lowestFree s.store.frames = none) :
    s.requestSlot = (s.countLink .noSlot 1).setReceiver .skipping := by
  simp only [State.requestSlot, full]

/-! ### The bytes of a link frame -/

theorem exec_byteArrival_ignored {s : State} (b : Byte) (other : s.mac.receiver = .idle ∨ s.mac.receiver = .skipping) :
    exec (.byteArrival b) s = .next s := by
  rcases other with idle | skipping
  · simp only [exec, execByteArrival, idle]
  · simp only [exec, execByteArrival, skipping]

theorem exec_byteArrival_storing {s : State} (b : Byte) {h : Handle} (storing : s.mac.receiver = .storing h) :
    exec (.byteArrival b) s = .next (State.closeEvent s ((s.checkArrival b).storeArrival h b)) := by
  simp only [exec, execByteArrival, storing]

theorem lostLastHold_of_holds {f g : Frame} (same : g.holds = f.holds) : lostLastHold f g = false := by
  simp [lostLastHold, same]

theorem State.modifyFrame_holds {s : State} {h : Handle} {f : Frame → Frame}
    (same : (f (s.frame h)).holds = (s.frame h).holds) (k : Handle) :
    ((s.modifyFrame h f).frame k).holds = (s.frame k).holds := by
  rw [State.modifyFrame_frame]
  split
  · next here => rw [here, same]
  · rfl

/-- An event that takes neither a hold nor a granule closes as it is. -/
theorem State.closeEvent_holdsKept {b s : State} (holds : ∀ k, (s.frame k).holds = (b.frame k).holds)
    (freeList : s.store.freeList = b.store.freeList) (installed : s.partition.installed = b.partition.installed) :
    State.closeEvent b s = s :=
  State.closeEvent_nothing freeList (fun k => lostLastHold_of_holds (holds k)) (thresholdsChanged_of_eq installed)

section
variable {s : State} {h : Handle} {b : Byte}

theorem State.storeArrival_ended (ended : (s.frame h).truncated = true ∨ (s.frame h).tooLong = true) :
    s.storeArrival h b = s := if_pos ended

variable (untruncated : (s.frame h).truncated = false) (short : (s.frame h).tooLong = false)
include untruncated short

theorem State.storeArrival_tooLong (full : 1514 ≤ (s.frame h).length) :
    s.storeArrival h b = s.modifyFrame h fun f => { f with tooLong := true } := by
  have open_ : ¬ ((s.frame h).truncated = true ∨ (s.frame h).tooLong = true) := by simp [untruncated, short]
  unfold State.storeArrival
  rw [if_neg open_]
  exact if_pos full

theorem State.storeArrival_truncated (room : (s.frame h).length < 1514) (boundary : (s.frame h).length % 128 = 0)
    (scarce : s.store.freeList.length ≤ s.partition.installed.reserve.toNat) :
    s.storeArrival h b = s.modifyFrame h fun f => { f with truncated := true } := by
  have open_ : ¬ ((s.frame h).truncated = true ∨ (s.frame h).tooLong = true) := by simp [untruncated, short]
  have refused : s.requestGranule h = none := if_neg (by omega)
  unfold State.storeArrival
  simp only [if_neg open_, if_neg (show ¬ maxLength ≤ (s.frame h).length by unfold maxLength; omega), if_pos boundary,
    granuleSize, refused]

/-- The hub with the head of the free list taken, zeroed, to the end of a chain. -/
def State.extended (s : State) (h : Handle) : State :=
  (s.takeGranules 1).modifyFrame h fun f => { f with chain := f.chain ++ s.store.freeList.take 1 }

theorem State.storeArrival_extends (room : (s.frame h).length < 1514) (boundary : (s.frame h).length % 128 = 0)
    (plenty : s.partition.installed.reserve.toNat < s.store.freeList.length) :
    s.storeArrival h b = (s.extended h).appendByte h b := by
  have open_ : ¬ ((s.frame h).truncated = true ∨ (s.frame h).tooLong = true) := by simp [untruncated, short]
  have granted : s.requestGranule h = some (s.extended h) := if_pos plenty
  unfold State.storeArrival
  simp only [if_neg open_, if_neg (show ¬ maxLength ≤ (s.frame h).length by unfold maxLength; omega), if_pos boundary,
    granuleSize, granted]

theorem State.storeArrival_appends (room : (s.frame h).length < 1514) (inside : (s.frame h).length % 128 ≠ 0) :
    s.storeArrival h b = s.appendByte h b := by
  have open_ : ¬ ((s.frame h).truncated = true ∨ (s.frame h).tooLong = true) := by simp [untruncated, short]
  unfold State.storeArrival
  rw [if_neg open_, if_neg (show ¬ maxLength ≤ (s.frame h).length by unfold maxLength; omega)]
  exact if_neg inside

end

theorem Table.set_set {n : Nat} {α : Type} (t : Table n α) (i : Fin n) (a b : α) : (t.set i a).set i b = t.set i b :=
  Table.ext_get fun j => by
    simp only [Table.get_set]
    split <;> rfl

theorem State.extended_frame (s : State) (h : Handle) : (s.extended h).frame h =
    { s.frame h with chain := (s.frame h).chain ++ s.store.freeList.take 1 } := Table.get_set_self _ _ _

theorem State.extended_mem {s : State} {g : Granule} {more : List Granule} (list : s.store.freeList = g :: more)
    (h : Handle) (a : Nat) : readByte (s.extended h).store.mem a =
      if a / 128 = g.val then 0 else readByte s.store.mem a := by
  show readByte ((s.store.freeList.take 1).foldl zeroGranule s.store.mem) a = _
  rw [list]
  exact readByte_zeroGranule _ _ _

theorem State.extended_appendByte_frames (s : State) (h : Handle) (b : Byte) :
    ((s.extended h).appendByte h b).store.frames = s.store.frames.set h { s.frame h with
      length := (s.frame h).length + 1, chain := (s.frame h).chain ++ s.store.freeList.take 1 } := by
  show ((s.extended h).store.frames.set h { (s.extended h).frame h with
    length := ((s.extended h).frame h).length + 1 }) = _
  rw [State.extended_frame]
  exact Table.set_set _ _ _ _

theorem State.extended_appendByte_holds (s : State) (h : Handle) (b : Byte) (k : Handle) :
    (((s.extended h).appendByte h b).frame k).holds = (s.frame k).holds := by
  have chained : ((s.extended h).frame k).holds = (s.frame k).holds := State.modifyFrame_holds (s := s.takeGranules 1)
    (f := fun f => { f with chain := f.chain ++ s.store.freeList.take 1 }) rfl k
  exact (State.modifyFrame_holds (s := (s.extended h).storeBytes h _ [b])
    (f := fun f => { f with length := f.length + 1 }) rfl k).trans chained

/-- Where the byte that follows the stored ones comes to lie. -/
theorem State.appendByte_mem {s : State} {h : Handle} {g : Granule}
    (last : (s.frame h).chain[(s.frame h).length / 128]? = some g) (b : Byte) (a : Nat) :
    readByte (s.appendByte h b).store.mem a =
      if a = g.val * 128 + (s.frame h).length % 128 then b else readByte s.store.mem a := by
  have address : (s.frame h).address (s.frame h).length = some (g.val * 128 + (s.frame h).length % 128) := by
    simp only [Frame.address, granuleSize, last]
  have cells : (s.frame h).cells (s.frame h).length [b] = [(g.val * 128 + (s.frame h).length % 128, b)] := by
    simp only [Frame.cells, address]
  show readByte (writeBytes s.store.mem ((s.frame h).cells (s.frame h).length [b])) a = _
  rw [cells]
  exact readByte_writeByte _ _ _ _

/-- Settles O30: the check register, the slot that a frame start takes, and where each byte goes. -/
theorem framesAreStored : Obligations.FramesAreStored := by
  refine ⟨crcBit_eq, crcByte_eq, fun bytes => ⟨rfl, ?_⟩, fun fcs => ⟨by rw [checkBytes_eq]; rfl, fun j byte k bit =>
    getLsbD_checkBytes fcs byte bit⟩, fun s => ⟨exec_frameStart_ignored, fun up idle => ⟨fun h free lowest => ?_,
      fun full => ⟨(s.countLink .noSlot 1).setReceiver .skipping, ?_, ?_, ?_⟩⟩, exec_byteArrival_ignored, fun b h storing =>
      ⟨fun ended => ?_, fun untruncated short => ⟨fun full => ?_, fun room boundary scarce => ?_,
        fun room boundary plenty chained => ?_, fun g room inside last => ?_⟩⟩⟩⟩
  · rw [List.foldl_append]
    exact foldl_crcByte_checkBytes _
  · have granted : lowestFree s.store.frames = some h := lowestFree_eq_some_iff.mpr ⟨free, lowest⟩
    rw [exec_frameStart_requested up idle]
    simp only [State.requestSlot, granted]
    rfl
  · rw [exec_frameStart_requested up idle, State.requestSlot_refused (lowestFree_eq_none_iff.mpr full)]
  · apply State.ext <;> simp [State.setReceiver, LinkCounters.set, LinkCounters.get]
  · exact s.countLink_saturated .noSlot 1
  all_goals rw [exec_byteArrival_storing b storing]
  · rw [State.storeArrival_ended (s := s.checkArrival b) ended]
    exact congrArg _ (State.closeEvent_same rfl rfl)
  · rw [State.storeArrival_tooLong (s := s.checkArrival b) untruncated short full]
    exact congrArg _ (State.closeEvent_holdsKept (State.modifyFrame_holds rfl) rfl rfl)
  · rw [State.storeArrival_truncated (s := s.checkArrival b) untruncated short room boundary scarce]
    exact congrArg _ (State.closeEvent_holdsKept (State.modifyFrame_holds rfl) rfl rfl)
  · rw [State.storeArrival_extends (s := s.checkArrival b) untruncated short room boundary plenty]
    obtain ⟨g, more, list⟩ := List.exists_cons_of_length_pos (Nat.zero_lt_of_lt plenty)
    have store := State.closeEvent_store_kept (b := s) (s := ((s.checkArrival b).extended h).appendByte h b)
      fun k => lostLastHold_of_holds (State.extended_appendByte_holds _ h b k)
    refine ⟨_, g, more, list, rfl, ?_, ?_, fun a => ?_, ?_, ?_⟩
    · rw [store]
      show s.store.freeList.drop 1 = more
      rw [list]
      rfl
    · rw [store, State.extended_appendByte_frames]
      show s.store.frames.set h { s.frame h with chain := _ ++ s.store.freeList.take 1, length := _ } = _
      rw [list]
      rfl
    · have last : (((s.checkArrival b).extended h).frame h).chain[(((s.checkArrival b).extended h).frame h).length / 128]? =
          some g := by
        rw [State.extended_frame]
        show ((s.frame h).chain ++ s.store.freeList.take 1)[(s.frame h).length / 128]? = some g
        rw [list, ← chained]
        simp
      have start : (((s.checkArrival b).extended h).frame h).length % 128 = 0 := by
        rw [State.extended_frame]
        exact boundary
      rw [store, State.appendByte_mem last, State.extended_mem (s := s.checkArrival b) list, start, Nat.add_zero]
      rfl
    · exact State.closeEvent_answers rfl rfl rfl
    · rw [State.closeEvent_eq]
      rfl
  · rw [State.storeArrival_appends (s := s.checkArrival b) untruncated short room inside]
    have still : State.closeEvent s ((s.checkArrival b).appendByte h b) = (s.checkArrival b).appendByte h b :=
      State.closeEvent_holdsKept (State.modifyFrame_holds rfl) rfl rfl
    exact ⟨_, rfl, by rw [still]; rfl, fun a => by rw [still]; exact State.appendByte_mem (s := s.checkArrival b) last b a,
      by rw [still]; rfl⟩

end Sys2Proof.Machine
end

section
/-! The end of a link frame: the checks of Table 5-2, and a received flow-control frame (R87, R88, R139, R140). -/

namespace Sys2Proof.Machine

/-! ### A discard -/

theorem State.discardFrame_discarded {x : State} {h : Handle} (held : (x.frame h).holds = { Holds.none with fill := true })
    (c : LinkCounter) : Discarded x (State.closeEvent x (x.discardFrame h c)) h c := by
  have store : (x.discardFrame h c).store = (x.setFrame h { x.frame h with holds := Holds.none }).store := by
    apply FrameStore.ext
    · simp
    · simp
    · refine State.frames_ext fun k => ?_
      rw [State.discardFrame_frame, State.setFrame_frame]
      split
      · next here => rw [here, held]; rfl
      · rfl
  obtain ⟨⟨released, -⟩, only, mem, mac⟩ := State.closeEvent_oneFrame_after (b := x) (s := x.discardFrame h c)
    (c := { x with mac := { x.mac with receiver := .idle } }) (left := Holds.none) (by rw [held]; rfl) store
    (by simp [State.discardFrame, State.setReceiver]) rfl rfl
  obtain ⟨frame, list⟩ := released rfl
  have counted := x.countLink_saturated c 1
  refine ⟨frame, only, list, mem, ?_, ⟨fun reached => (counted.1 reached).to_eq ?_, fun below => Eq.trans ?_ (counted.2 below)⟩,
    mac, ?_⟩
  · simp [State.discardFrame]
  · simp [State.discardFrame]
  · simp [State.discardFrame]
  · rw [State.closeEvent_eq]
    apply State.ext <;> simp [State.discardFrame]

/-- The close of an event compares the frames before and after, so it is the same from another beginning that loses
the same last holds. -/
theorem State.closeEvent_congr_lost {b b' s : State}
    (lost : ∀ k, lostLastHold (b'.frame k) (s.frame k) = lostLastHold (b.frame k) (s.frame k))
    (list : b'.store.freeList = b.store.freeList) (installed : b'.partition.installed = b.partition.installed) :
    State.closeEvent b' s = State.closeEvent b s := by
  have released : State.releaseLost b' s = State.releaseLost b s := by
    apply State.ext <;> try rfl
    apply FrameStore.ext
    · rfl
    · rw [State.releaseLost_freeList, State.releaseLost_freeList]
      simp only [lost]
    · exact State.frames_ext fun k => by rw [State.releaseLost_frame, State.releaseLost_frame, lost]
  unfold State.closeEvent thresholdsChanged
  rw [released, list, installed]

/-! ### The outcome of a frame end -/

theorem exec_frameEnd_storing {s : State} {h : Handle} (e : LinkEnd) (storing : s.mac.receiver = .storing h) :
    exec (.frameEnd e) s =
      .next (State.closeEvent s (s.endFrame h (endOutcome s.mac.rxCrc (s.frame h).hasArrivals e))) := by
  simp only [exec, execFrameEnd, storing]

theorem endOutcome_badCheck {f : Frame} {register : Word} {fcs : Word} {bad : Bool}
    (wrong : fcs ≠ ~~~ register ∨ bad = true ∨ (f.length = 0 ∧ f.truncated = false ∧ f.tooLong = false)) :
    endOutcome register f.hasArrivals (.checked fcs bad) = .badCheck := by
  refine if_neg ?_
  rintro ⟨arrived, same, clean⟩
  rcases wrong with differs | error | ⟨short, untruncated, unspoilt⟩
  · exact differs same
  · rw [error] at clean; cases clean
  · simp [Frame.hasArrivals, short, untruncated, unspoilt] at arrived

theorem endOutcome_good {f : Frame} (register : Word)
    (arrived : f.length ≠ 0 ∨ f.truncated = true ∨ f.tooLong = true) :
    endOutcome register f.hasArrivals (.checked (~~~ register) false) = .good := by
  refine if_pos ⟨?_, rfl, rfl⟩
  simpa [Frame.hasArrivals, or_assoc] using arrived

section
variable {s : State} {h : Handle}

theorem State.endFrame_truncated (truncated : (s.frame h).truncated = true) :
    s.endFrame h .good = s.discardFrame h .truncated := if_pos truncated

variable (untruncated : (s.frame h).truncated = false)
include untruncated

theorem State.endFrame_tooLong (tooLong : (s.frame h).tooLong = true) :
    s.endFrame h .good = s.discardFrame h .tooLong := by
  simp [State.endFrame, untruncated, tooLong]

variable (short : (s.frame h).tooLong = false)
include short

theorem State.endFrame_runt (runt : (s.frame h).length < 60) : s.endFrame h .good = s.discardFrame h .runts := by
  simp [State.endFrame, untruncated, short, minWireLength, runt]

theorem State.endFrame_flow (whole : 60 ≤ (s.frame h).length) (flow : s.isFlowControl h = true) :
    s.endFrame h .good = (s.loadPause (s.flowQuanta h)).discardFrame h .pauseReceived := by
  simp [State.endFrame, untruncated, short, minWireLength, Nat.not_lt.mpr whole, flow]

theorem State.endFrame_settles (whole : 60 ≤ (s.frame h).length) (ordinary : s.isFlowControl h = false) :
    s.endFrame h .good = s.settleFrame h := by
  simp [State.endFrame, untruncated, short, minWireLength, Nat.not_lt.mpr whole, ordinary]

end

theorem State.isFlowControl_iff {s : State} {h : Handle} : s.isFlowControl h = true ↔
    s.bytesAt h 0 6 = [0x01, 0x80, 0xC2, 0x00, 0x00, 0x01] ∧ s.bytesAt h 12 4 = [0x88, 0x08, 0x00, 0x01] := by
  simp only [State.isFlowControl, Bool.and_eq_true, beq_iff_eq]
  rfl

theorem beNat_lt (l : List Byte) : beNat l < 256 ^ l.length := by
  have bound := Nat.mod_lt (beNat l) (show 0 < 256 ^ l.length by positivity)
  rwa [← beNat_beBytes, beBytes_beNat] at bound

theorem State.flowQuanta_toNat (s : State) (h : Handle) : (s.flowQuanta h).toNat = beNat (s.bytesAt h 16 2) := by
  have bound := beNat_lt (s.bytesAt h 16 2)
  rw [State.bytesAt_length] at bound
  exact Nat.mod_eq_of_lt bound

theorem State.flowQuanta_eq_zero_iff {s : State} {h : Handle} :
    s.flowQuanta h = 0 ↔ beNat (s.bytesAt h 16 2) = 0 := by
  rw [← State.flowQuanta_toNat, ← BitVec.toNat_inj]
  rfl

/-! ### The pause timer at a received quanta value -/

section
variable {s : State} {speed : Speed} {q : Half} (up : s.mac.link = .up speed)
include up

theorem State.loadPause_runs (nonzero : q ≠ 0) : s.loadPause q =
    { s with mac := { s.mac with pauseUntil := some (s.clock.now + q.toNat * (512 * speed.bitTime)) } } := by
  simp only [State.loadPause, up, if_neg nonzero]
  rfl

theorem State.loadPause_idle (stopped : s.mac.pauseUntil = none) : s.loadPause 0 = s := by
  simp [State.loadPause, up, stopped]

theorem State.loadPause_stops (runs : s.mac.pauseUntil ≠ none) :
    s.loadPause 0 = State.takeWork { s with mac := { s.mac with pauseUntil := none } } := by
  simp [State.loadPause, up, Option.isSome_iff_ne_none.mpr runs]

end

/-- Taking work leaves the frame alone that is at the front of no post queue. -/
theorem State.takeWork_frame_unposted {s : State} {h : Handle} (unposted : ∀ p, ∀ x ∈ (s.posts.get p).queue, x.handle ≠ h) :
    s.takeWork.frame h = s.frame h := by
  have work := s.takeWork_work
  generalize s.takeWork = t at work ⊢
  cases work with
  | busy => rfl
  | flow => simp
  | nothing => rfl
  | station speed p v e more up idle pending unpaused examined front =>
    have other : h ≠ e.handle := fun same => unposted p e (by simp [front]) same.symm
    rw [State.startStation_frame (s := { s with scheduler := v }) front speed, if_neg fun both => other both.1]
    rfl

/-- Settles O31: each frame end that is not good, and a received flow-control frame, is a discard under its counter. -/
theorem frameEndChecks : Obligations.FrameEndChecks := by
  refine fun s e => ⟨fun idle => ?_, fun skipping => ?_, fun h storing held => ⟨fun c why => ?_,
    fun good untruncated short whole address type speed up => ⟨fun quanta => ?_, fun zero stopped => ?_,
      fun zero runs unposted => ?_⟩⟩⟩
  · simp only [exec, execFrameEnd, idle]
  · simp only [exec, execFrameEnd, skipping]
    rfl
  · have discards : s.endFrame h (endOutcome s.mac.rxCrc (s.frame h).hasArrivals e) = s.discardFrame h c := by
      rcases why with ⟨rfl, rfl | ⟨fcs, bad, rfl, wrong⟩⟩ | ⟨rfl, rfl⟩ |
        ⟨rfl, ⟨rfl, truncated⟩ | ⟨untruncated, ⟨rfl, tooLong⟩ | ⟨rfl, short, some, runt⟩⟩⟩
      · rfl
      · rw [endOutcome_badCheck wrong]
        rfl
      · rfl
      · rw [endOutcome_good _ (.inr (.inl truncated)), State.endFrame_truncated truncated]
      · rw [endOutcome_good _ (.inr (.inr tooLong)), State.endFrame_tooLong untruncated tooLong]
      · rw [endOutcome_good _ (.inl some), State.endFrame_runt untruncated short runt]
    refine ⟨_, exec_frameEnd_storing e storing, ?_⟩
    rw [discards]
    exact State.discardFrame_discarded held c
  all_goals
    have discards : s.endFrame h (endOutcome s.mac.rxCrc (s.frame h).hasArrivals e) =
        (s.loadPause (s.flowQuanta h)).discardFrame h .pauseReceived := by
      rw [good, endOutcome_good _ (.inl (by omega)),
        State.endFrame_flow untruncated short whole (State.isFlowControl_iff.mpr ⟨address, type⟩)]
    rw [exec_frameEnd_storing e storing, discards]
  · rw [State.loadPause_runs up (mt State.flowQuanta_eq_zero_iff.mp quanta), State.flowQuanta_toNat]
    refine ⟨_, rfl, ?_⟩
    rw [← State.closeEvent_congr (b := s) (b' := { s with mac := { s.mac with
      pauseUntil := some (s.clock.now + beNat (s.bytesAt h 16 2) * (512 * speed.bitTime)) } }) rfl rfl]
    exact State.discardFrame_discarded (x := { s with mac := { s.mac with
      pauseUntil := some (s.clock.now + beNat (s.bytesAt h 16 2) * (512 * speed.bitTime)) } }) held .pauseReceived
  · rw [State.flowQuanta_eq_zero_iff.mpr zero, State.loadPause_idle up stopped]
    exact ⟨_, rfl, State.discardFrame_discarded held .pauseReceived⟩
  · rw [State.flowQuanta_eq_zero_iff.mpr zero, State.loadPause_stops up runs]
    set x : State := { s with mac := { s.mac with pauseUntil := none } } with paused
    have same : x.takeWork.frame h = s.frame h := State.takeWork_frame_unposted (s := x) unposted
    have closed : State.closeEvent s (x.takeWork.discardFrame h .pauseReceived) =
        State.closeEvent x.takeWork (x.takeWork.discardFrame h .pauseReceived) := by
      refine State.closeEvent_congr_lost (fun k => ?_) (by simp [paused]) (by simp [paused])
      by_cases here : k = h
      · rw [here, same]
      · have untouched : (x.takeWork.discardFrame h .pauseReceived).frame k = x.takeWork.frame k := by
          rw [State.discardFrame_frame, if_neg here]
        rw [untouched, lostLastHold_self]
        cases empty : (x.takeWork.frame k).holds.isEmpty with
        | false => rw [lostLastHold, empty, Bool.and_false]
        | true =>
          have before : (s.frame k).holds.isEmpty = true := State.takeWork_held (s := x) empty
          rw [lostLastHold, before]
          rfl
    refine ⟨_, _, rfl, State.takeWork_tookWork _, ?_⟩
    rw [closed]
    exact State.discardFrame_discarded (same.symm ▸ held) .pauseReceived

end Sys2Proof.Machine
end

section
/-! What classification and admission make of the other stations: the result record, the counters and the flags
(R53 to R63, R91 to R95). -/

namespace Sys2Proof.Machine

/-! ### What classification looks at -/

/-- Two hubs that classification does not tell apart, for one frame. -/
structure SeenAlike (s t : State) (h : Handle) : Prop where
  entries : t.table.entries = s.table.entries
  generation : t.table.generation = s.table.generation
  sequence : t.sequence = s.sequence
  sessions : t.sessions = s.sessions
  mem : t.store.mem = s.store.mem
  chain : (t.frame h).chain = (s.frame h).chain
  length : (t.frame h).length = (s.frame h).length

namespace SeenAlike

variable {s t : State} {h : Handle} (a : SeenAlike s t h)
include a

theorem session (q : Station) : t.session q = s.session q := by rw [State.session, a.sessions]; rfl

theorem inSession (q : Station) : t.inSession q = s.inSession q := State.inSession_of_sessions a.sessions q

theorem isSuspended (q : Station) : t.isSuspended q = s.isSuspended q := by
  rw [State.isSuspended, a.session]; rfl

theorem accepts (q r : Station) : t.accepts q r = s.accepts q r := by rw [State.accepts, a.session]; rfl

theorem entry (i : EntryIndex) : t.entry i = s.entry i := State.entry_of_entries a.entries i

theorem address (k : Nat) : (t.frame h).address k = (s.frame h).address k := by
  unfold Frame.address
  rw [a.chain]

theorem byteAt (k : Nat) : t.byteAt h k = s.byteAt h k := by
  unfold State.byteAt
  rw [a.address, a.mem]

theorem bytesAt (o n : Nat) : t.bytesAt h o n = s.bytesAt h o n := by
  unfold State.bytesAt
  exact List.map_congr_left fun i _ => a.byteAt _

theorem isBroadcast : t.isBroadcast h = s.isBroadcast h := by
  rw [State.isBroadcast, a.bytesAt]; rfl

theorem kindMatches (kind : MatchKind) : t.kindMatches h kind = s.kindMatches h kind := by
  cases kind with
  | address field value => cases field <;> simp only [State.kindMatches, a.bytesAt]
  | group buckets => simp only [State.kindMatches, a.bytesAt]
  | ethertype value => simp only [State.kindMatches, a.bytesAt]
  | pattern offset template mask => simp only [State.kindMatches, a.bytesAt, a.length]
  | all => rfl

theorem effectiveTargets (origin : Origin) (owner : Station) (targets : StationSet) :
    t.effectiveTargets origin owner targets = s.effectiveTargets origin owner targets := by
  simp only [State.effectiveTargets, a.inSession, a.accepts]

theorem hit (w : Walk) (i : EntryIndex) (c : Contents) (origin : Origin) (owner : Station) :
    w.hit t i c origin owner = w.hit s i c origin owner := by
  rw [Walk.hit, a.effectiveTargets]; rfl

theorem walk (origin : Origin) (order : List EntryIndex) (w : Walk) :
    t.walk h origin order w = s.walk h origin order w := by
  induction order generalizing w with
  | nil => rfl
  | cons i rest ih => simp only [State.walk, a.entry, a.kindMatches, a.hit, ih]

theorem evaluationOrder : t.evaluationOrder = s.evaluationOrder := by
  have precedence : ∀ i, t.precedence i = s.precedence i := fun i => by simp only [State.precedence, a.entry]
  have placed : ∀ i l, t.placeEntry i l = s.placeEntry i l := fun i l => by
    induction l with
    | nil => rfl
    | cons j rest ih => simp only [State.placeEntry, precedence, ih]
  have place : t.placeEntry = s.placeEntry := funext fun i => funext fun l => placed i l
  simp only [State.evaluationOrder, a.entry, place]

theorem walkFrame (origin : Origin) : t.walkFrame h origin = s.walkFrame h origin := by
  rw [State.walkFrame, a.walk, a.evaluationOrder]; rfl

theorem defaultDelivery (origin : Origin) : t.defaultDelivery h origin = s.defaultDelivery h origin := by
  simp only [defaultDelivery_eq, a.inSession, a.session, a.bytesAt]

theorem asleep (delivery wake : StationSet) : t.asleep delivery wake = s.asleep delivery wake := by
  simp only [State.asleep, a.isSuspended]

theorem resultOf (origin : Origin) (w : Walk) : t.resultOf h origin w = s.resultOf h origin w := by
  simp only [State.resultOf, a.defaultDelivery, a.asleep, State.suspendedIn, a.isSuspended, a.sequence, a.generation]

theorem asleepOf (origin : Origin) (w : Walk) : t.asleepOf h origin w = s.asleepOf h origin w := by
  rw [State.asleepOf, a.defaultDelivery, a.asleep]; rfl

end SeenAlike

/-! ### One offer -/

theorem State.decide_eq_admitted_iff {s : State} {n : Nat} {q : Station} : s.decide n q = .admitted ↔
    s.inSession q = true ∧ (s.intake.get q).length < 32 ∧ s.charge q + n ≤ s.quota q := by
  unfold State.decide intakeCapacity
  cases into : s.inSession q with
  | false => simp
  | true =>
    by_cases full : 32 ≤ (s.intake.get q).length
    · simp [full]
    · by_cases excess : s.quota q < s.charge q + n
      · simp [full, excess]
      · simp [full, excess]
        omega

/-- The counters of a station after a frame was offered to it. -/
def offeredCounters (d : Admission) (wake : Bool) (v : StationCounters) : StationCounters :=
  match d with
  | .skipped => v
  | .queueFull => { v with queueFullDrops := satAdd v.queueFullDrops 1 }
  | .overQuota => { v with quotaDrops := satAdd v.quotaDrops 1 }
  | .admitted => { v with
      delivered := satAdd v.delivered 1,
      wakeDeliveries := if wake then satAdd v.wakeDeliveries 1 else v.wakeDeliveries }

/-- The flags that an offer of a frame raises at its station. -/
def offeredFlag (d : Admission) (wake : Bool) (f : Flag) : Prop :=
  (f = .rxready ∧ d = .admitted) ∨ (f = .wake ∧ d = .admitted ∧ wake = true) ∨
    (f = .drop ∧ (d = .queueFull ∨ d = .overQuota))

theorem State.countDrop_stationCounters (s : State) (p : Station) (c : StationCounter) :
    (s.countDrop p c).stationCounters = s.stationCounters.set p
      ((s.stationCounters.get p).set c (satAdd ((s.stationCounters.get p).get c) 1)) := by
  simp [State.countDrop]

theorem Signals.countDrop (s : State) (p : Station) (c : StationCounter) (q : Station) :
    Signals s (s.countDrop p c) q fun f => f = .drop ∧ q = p :=
  ((Signals.countStation s p c 1 q).trans (Signals.raiseFlag _ .drop p q)).congr fun f => by simp

theorem State.admitAt_stationCounters (s : State) (h : Handle) (wake : Bool) (p : Station) :
    (s.admitAt h wake p).stationCounters =
      s.stationCounters.set p (offeredCounters .admitted wake (s.stationCounters.get p)) := by
  have twice : ∀ (m : Per StationCounters) v w, (m.set p v).set p w = m.set p w := fun m v w =>
    Per.ext_get fun q => by simp only [Per.get_set]; split <;> rfl
  cases wake <;>
    simp [State.admitAt, offeredCounters, StationCounters.set, StationCounters.get, twice]

theorem Signals.admitAt (s : State) (h : Handle) (wake : Bool) (p q : Station) :
    Signals s (s.admitAt h wake p) q fun f => q = p ∧ offeredFlag .admitted wake f := by
  have held : Signals s ((s.setIntake p (s.intake.get p ++ [{ handle := h, admitted := s.clock.now, wake := wake }])).modifyFrame
      h fun f => f.addHold fun x => { x with intake := insertStation x.intake p }) q fun _ => False :=
    Signals.quiet rfl rfl rfl rfl
  have ready := (held.thenCountStation p .delivered 1).trans (Signals.raiseFlag _ .rxready p q)
  cases wake with
  | false => exact ready.congr fun f => by simp [offeredFlag]; tauto
  | true =>
    exact ((ready.thenCountStation p .wakeDeliveries 1).trans (Signals.raiseFlag _ .wake p q)).congr fun f => by
      simp [offeredFlag]; tauto

theorem State.offer_stationCounters (h : Handle) (wake : StationSet) (x : State × Nat) (t : Station) :
    (State.offer h wake x t).1.stationCounters = x.1.stationCounters.set t
      (offeredCounters (x.1.decide (x.1.frame h).granules t) (inSet wake t) (x.1.stationCounters.get t)) := by
  unfold State.offer
  cases d : x.1.decide (x.1.frame h).granules t with
  | skipped => exact (Per.set_get _ _).symm
  | queueFull => exact State.countDrop_stationCounters _ _ _
  | overQuota => exact State.countDrop_stationCounters _ _ _
  | admitted => exact State.admitAt_stationCounters _ _ _ _

theorem Signals.offer (h : Handle) (wake : StationSet) (x : State × Nat) (t q : Station) :
    Signals x.1 (State.offer h wake x t).1 q fun f =>
      q = t ∧ offeredFlag (x.1.decide (x.1.frame h).granules t) (inSet wake t) f := by
  unfold State.offer
  cases d : x.1.decide (x.1.frame h).granules t with
  | skipped => exact (Signals.quiet rfl rfl rfl rfl).congr fun f => by simp [offeredFlag]
  | queueFull => exact (Signals.countDrop x.1 t .queueFullDrops q).congr fun f => by simp [offeredFlag, and_comm]
  | overQuota => exact (Signals.countDrop x.1 t .quotaDrops q).congr fun f => by simp [offeredFlag, and_comm]
  | admitted => exact Signals.admitAt x.1 h (inSet wake t) t q

/-! ### The offers to all stations -/

/-- What the offers of a frame to some stations count and signal, each station deciding for itself. -/
structure OffersCounted (h : Handle) (delivery wake : StationSet) (l : List Station) (x y : State × Nat) : Prop where
  counters : ∀ q, y.1.stationCounters.get q = if q ∈ l ∧ inSet delivery q = true
    then offeredCounters (x.1.decide (x.1.frame h).granules q) (inSet wake q) (x.1.stationCounters.get q)
    else x.1.stationCounters.get q
  signals : ∀ q, Signals x.1 y.1 q fun f => (q ∈ l ∧ inSet delivery q = true) ∧
    offeredFlag (x.1.decide (x.1.frame h).granules q) (inSet wake q) f

theorem OffersCounted.skipped {h : Handle} {delivery wake : StationSet} {l : List Station} {t : Station}
    {x y : State × Nat} (m : OffersCounted h delivery wake l x y) (skipped : ¬ inSet delivery t = true) :
    OffersCounted h delivery wake (t :: l) x y := by
  have same : ∀ q, (q ∈ t :: l ∧ inSet delivery q = true) ↔ (q ∈ l ∧ inSet delivery q = true) := fun q => by
    by_cases e : q = t <;> simp [e, skipped]
  exact ⟨fun q => by rw [m.counters]; simp only [same], fun q => (m.signals q).congr fun f => by simp only [same]⟩

theorem OffersCounted.offered {h : Handle} {delivery wake : StationSet} {l : List Station} {t : Station}
    {x y : State × Nat} (m : OffersCounted h delivery wake l (State.offer h wake x t) y) (fresh : t ∉ l)
    (offered : inSet delivery t = true) : OffersCounted h delivery wake (t :: l) x y := by
  have same : ∀ q, q ≠ t → (State.offer h wake x t).1.decide ((State.offer h wake x t).1.frame h).granules q =
      x.1.decide (x.1.frame h).granules q := fun q other => by
    rw [State.offer_granules, State.offer_decide h wake x other]
  refine ⟨fun q => ?_, fun q => ?_⟩
  · rw [m.counters, State.offer_stationCounters]
    by_cases own : q = t
    · subst own
      simp [fresh, offered]
    · simp [own, same q own, Per.get_set_ne _ _ own]
  · refine ((Signals.offer h wake x t q).trans (m.signals q)).congr fun f => ?_
    by_cases own : q = t
    · subst own
      simp [fresh, offered]
    · simp [own, same q own]

theorem State.offers_counted (h : Handle) (delivery wake : StationSet) (l : List Station) (x : State × Nat)
    (distinct : l.Nodup) : OffersCounted h delivery wake l x (State.offers h delivery wake l x) := by
  induction l generalizing x with
  | nil => exact ⟨fun q => by simp [State.offers], fun q => (Signals.quiet rfl rfl rfl rfl).congr fun f => by simp⟩
  | cons t l ih =>
    obtain ⟨fresh, distinct⟩ := List.nodup_cons.mp distinct
    by_cases offered : inSet delivery t = true
    · have step : State.offers h delivery wake (t :: l) x =
          State.offers h delivery wake l (State.offer h wake x t) := by simp [State.offers, offered]
      rw [step]
      exact (ih _ distinct).offered fresh offered
    · have step : State.offers h delivery wake (t :: l) x = State.offers h delivery wake l x := by
        simp [State.offers, offered]
      rw [step]
      exact (ih x distinct).skipped offered

theorem State.admission_counted {s : State} {h : Handle} {r : ClassResult} (classified : (s.frame h).result = some r) :
    OffersCounted h r.delivery r.wake Station.all (s, 0) (s.admission h) := by
  rw [State.admission_eq classified]
  exact State.offers_counted h _ _ _ _ Station.all_nodup

/-! ### The asleep drops -/

/-- The counting of the asleep drops at some stations. -/
def State.asleepDrops (dropped : StationSet) (l : List Station) (s : State) : State :=
  l.foldl (fun s p => if inSet dropped p then s.countDrop p .asleepDrops else s) s

theorem State.asleepDrops_cons (dropped : StationSet) (t : Station) (l : List Station) (s : State) :
    State.asleepDrops dropped (t :: l) s =
      State.asleepDrops dropped l (if inSet dropped t then s.countDrop t .asleepDrops else s) := rfl

theorem State.asleepDrops_counters (dropped : StationSet) (l : List Station) (s : State) (distinct : l.Nodup)
    (q : Station) : (State.asleepDrops dropped l s).stationCounters.get q = { s.stationCounters.get q with
      asleepDrops := if q ∈ l ∧ inSet dropped q = true then satAdd (s.stationCounters.get q).asleepDrops 1
        else (s.stationCounters.get q).asleepDrops } := by
  induction l generalizing s with
  | nil => simp [State.asleepDrops]
  | cons t l ih =>
    obtain ⟨fresh, distinct⟩ := List.nodup_cons.mp distinct
    rw [State.asleepDrops_cons, ih _ distinct]
    by_cases own : q = t
    · subst own
      by_cases drops : inSet dropped q = true <;>
        simp [fresh, drops, State.countDrop_stationCounters, StationCounters.set, StationCounters.get]
    · by_cases drops : inSet dropped t = true <;>
        simp [own, drops, State.countDrop_stationCounters, Per.get_set_ne _ _ own]

theorem Signals.asleepDrops (dropped : StationSet) (l : List Station) (s : State) (q : Station) :
    Signals s (State.asleepDrops dropped l s) q fun f => f = .drop ∧ q ∈ l ∧ inSet dropped q = true := by
  induction l generalizing s with
  | nil => exact (Signals.quiet rfl rfl rfl rfl).congr fun f => by simp
  | cons t l ih =>
    rw [State.asleepDrops_cons]
    by_cases drops : inSet dropped t = true
    · rw [if_pos drops]
      refine ((Signals.countDrop s t .asleepDrops q).trans (ih _)).congr fun f => ?_
      by_cases own : q = t
      · simp only [own, drops, List.mem_cons, true_or, and_true]
        tauto
      · simp [own]
    · rw [if_neg drops]
      refine (ih s).congr fun f => ?_
      by_cases own : q = t <;> simp [own, drops]

/-! ### One classification with its admission -/

section
variable (s : State) (h : Handle) (o : Origin)

/-- The hub with the hits, the result and the sequence number of a classification, before its asleep drops. -/
def State.recorded : State :=
  { (s.raiseHits (s.walkFrame h o).matched).modifyFrame h fun f =>
      { f with result := some (s.resultOf h o (s.walkFrame h o)) } with sequence := s.sequence + 1 }

theorem State.classify_eq : s.classify h o =
    State.asleepDrops (s.asleepOf h o (s.walkFrame h o)) Station.all (s.recorded h o) := rfl

theorem State.classify_counters (q : Station) : (s.classify h o).stationCounters.get q =
    { s.stationCounters.get q with
      asleepDrops := if inSet (s.asleepOf h o (s.walkFrame h o)) q = true
        then satAdd (s.stationCounters.get q).asleepDrops 1 else (s.stationCounters.get q).asleepDrops } := by
  rw [State.classify_eq, State.asleepDrops_counters _ _ _ Station.all_nodup]
  simp only [Station.mem_all, true_and]
  rfl

theorem Signals.classify (q : Station) : Signals s (s.classify h o) q fun f =>
    f = .drop ∧ inSet (s.asleepOf h o (s.walkFrame h o)) q = true := by
  have recorded : Signals s (s.recorded h o) q fun _ => False := Signals.quiet rfl rfl rfl rfl
  rw [State.classify_eq]
  exact (recorded.trans (Signals.asleepDrops _ Station.all _ q)).congr fun f => by simp [Station.mem_all]

theorem State.classify_sequence : (s.classify h o).sequence = s.sequence + 1 := by
  simp [State.classify]

theorem State.classify_decide (q : Station) :
    (s.classify h o).decide ((s.classify h o).frame h).granules q = s.decide (s.frame h).granules q := by
  have granules : ((s.classify h o).frame h).granules = (s.frame h).granules := by
    rw [State.classify_frame]; rfl
  rw [granules]
  exact State.decide_congr (by simp) (by simp) (by simp) fun k => by rw [State.classify_frame]; exact ⟨rfl, rfl⟩

/-- The stations that take a classified frame, by Table 5-3. -/
theorem State.classified_admits (q : Station) : inSet ((s.classify h o).admittedOf h) q = true ↔
    inSet (s.resultOf h o (s.walkFrame h o)).delivery q = true ∧ s.decide (s.frame h).granules q = .admitted := by
  rw [State.admittedOf_eq (r := s.resultOf h o (s.walkFrame h o)) (by simp), State.admitters_iff, State.classify_decide]

theorem State.classified_offered : Offered s ((s.classify h o).admission h).1 h
    (s.resultOf h o (s.walkFrame h o)).delivery (s.resultOf h o (s.walkFrame h o)).wake
    ((s.classify h o).admittedOf h) where
  admits q := by
    rw [State.classified_admits, State.decide_eq_admitted_iff]
    simp only [State.inSession, bne_iff_ne]
    rfl
  intake q := by
    rw [State.admission_intake]
    simp

theorem State.classified_counters (q : Station) :
    ((s.classify h o).admission h).1.stationCounters.get q =
      admissionCounters s (s.resultOf h o (s.walkFrame h o)).delivery (s.resultOf h o (s.walkFrame h o)).wake
        (s.asleepOf h o (s.walkFrame h o)) ((s.classify h o).admittedOf h) q := by
  have counted := (State.admission_counted (s := s.classify h o) (h := h)
    (r := s.resultOf h o (s.walkFrame h o)) (by simp)).counters q
  simp only [Station.mem_all, true_and, State.classify_decide, State.classify_counters] at counted
  have admits : inSet ((s.classify h o).admittedOf h) q = (inSet (s.resultOf h o (s.walkFrame h o)).delivery q &&
      Decidable.decide (s.decide (s.frame h).granules q = .admitted)) := by
    rw [Bool.eq_iff_iff, State.classified_admits]
    simp
  rw [counted, admissionCounters, admits]
  cases delivered : inSet (s.resultOf h o (s.walkFrame h o)).delivery q with
  | false => simp
  | true =>
    unfold State.decide intakeCapacity
    cases into : s.inSession q with
    | false => simp [offeredCounters]
    | true =>
      by_cases full : 32 ≤ (s.intake.get q).length
      · simp [offeredCounters, full]
      · by_cases excess : s.quota q < s.charge q + (s.frame h).granules
        · simp [offeredCounters, full, excess, Nat.lt_of_not_le full]
        · simp [offeredCounters, full, excess]

theorem Signals.classified (q : Station) : Signals s ((s.classify h o).admission h).1 q fun f =>
    (f = .drop ∧ inSet (s.asleepOf h o (s.walkFrame h o)) q = true) ∨
    (inSet (s.resultOf h o (s.walkFrame h o)).delivery q = true ∧
      offeredFlag (s.decide (s.frame h).granules q) (inSet (s.resultOf h o (s.walkFrame h o)).wake q) f) := by
  have counted := (State.admission_counted (s := s.classify h o) (h := h)
    (r := s.resultOf h o (s.walkFrame h o)) (by simp)).signals q
  simp only [Station.mem_all, true_and, State.classify_decide] at counted
  exact (Signals.classify s h o q).trans counted

end

/-- In session, the flags of a classification with its admission are those of the stations that take and of those
that do not. -/
theorem admissionFlag_iff {s : State} {h : Handle} {o : Origin} {q : Station} (into : s.inSession q = true) (f : Flag) :
    admissionFlag (s.resultOf h o (s.walkFrame h o)).delivery (s.resultOf h o (s.walkFrame h o)).wake
        (s.asleepOf h o (s.walkFrame h o)) ((s.classify h o).admittedOf h) q f ↔
      (f = .drop ∧ inSet (s.asleepOf h o (s.walkFrame h o)) q = true) ∨
      (inSet (s.resultOf h o (s.walkFrame h o)).delivery q = true ∧
        offeredFlag (s.decide (s.frame h).granules q) (inSet (s.resultOf h o (s.walkFrame h o)).wake q) f) := by
  have admits := State.classified_admits s h o q
  have online : s.decide (s.frame h).granules q ≠ .skipped := by
    unfold State.decide
    rw [into]
    split
    · next out => cases out
    · split <;> [exact nofun; split <;> exact nofun]
  have refused : inSet ((s.classify h o).admittedOf h) q = false ↔
      ¬ (inSet (s.resultOf h o (s.walkFrame h o)).delivery q = true ∧
        s.decide (s.frame h).granules q = .admitted) := by
    rw [← admits, Bool.not_eq_true]
  unfold admissionFlag offeredFlag
  rw [refused, admits]
  generalize s.decide (s.frame h).granules q = d at online
  clear admits refused into
  cases d with
  | skipped => exact absurd rfl online
  | queueFull => simp only [reduceCtorEq, and_false, or_false, and_true, not_false_iff]; tauto
  | overQuota => simp only [reduceCtorEq, and_false, or_true, and_true, not_false_iff]; tauto
  | admitted => simp only [reduceCtorEq, and_true, true_and, or_false, and_false]; tauto

theorem FlagsRaised.congr_inSession {s t : State} {q : Station} {a b : Flag → Prop} (h : FlagsRaised s t q a)
    (same : s.inSession q = true → ∀ f, a f ↔ b f) : FlagsRaised s t q b := by
  cases into : s.inSession q with
  | true => exact h.congr (same into)
  | false =>
    refine ⟨fun both => absurd both.1 (by simp [into]), fun _ => h.2 fun both => absurd both.1 (by simp [into])⟩

end Sys2Proof.Machine
end

section
/-! The end of a good link frame: settled, counted, classified, admitted (R89). -/

namespace Sys2Proof.Machine

/-! ### One frame record replaced -/

/-- An event that changes one frame record, which has a hold before, releases it exactly when it has none after. -/
theorem State.closeEvent_oneChanged {b s : State} {h : Handle} (held : (b.frame h).holds.isEmpty = false)
    (others : ∀ k, k ≠ h → s.frame k = b.frame k) (list : s.store.freeList = b.store.freeList) :
    ((s.frame h).holds.isEmpty = true → (State.closeEvent b s).frame h = Frame.free ∧
      (State.closeEvent b s).store.freeList = b.store.freeList ++ (s.frame h).chain) ∧
    ((s.frame h).holds.isEmpty = false → (State.closeEvent b s).frame h = s.frame h ∧
      (State.closeEvent b s).store.freeList = b.store.freeList) ∧ OnlyFrame b (State.closeEvent b s) h := by
  set x := b.setFrame h { s.frame h with holds := (b.frame h).holds } with changed
  have own : x.frame h = { s.frame h with holds := (b.frame h).holds } := by simp [changed]
  have beside : ∀ k, k ≠ h → x.frame k = b.frame k := fun k other => by simp [changed, other]
  have same : State.closeEvent x s = State.closeEvent b s := by
    refine State.closeEvent_congr_lost (fun k => ?_) rfl rfl
    by_cases here : k = h
    · rw [here, own]; rfl
    · rw [beside k here]
  obtain ⟨⟨released, kept⟩, only⟩ := State.closeEvent_releasedOrKept (b := x) (s := s) (left := (s.frame h).holds)
    (by rw [own]; exact held) (by rw [own]) (fun k other => (others k other).trans (beside k other).symm) list
  rw [same] at released kept only
  rw [own] at released kept
  exact ⟨released, kept, fun k other => (only k other).trans (beside k other)⟩

theorem admitted_count_eq_zero_iff {v : StationSet} : (Station.all.filter (inSet v)).length = 0 ↔ v = 0 := by
  rw [List.length_eq_zero_iff, List.filter_eq_nil_iff]
  constructor
  · intro none
    exact set_ext fun q => by simpa using none q (Station.mem_all q)
  · rintro rfl q -
    rw [show inSet 0 q = false from inSet_empty q]
    exact nofun

/-! ### Hubs that an offer does not tell apart -/

theorem Offered.congr {s s' t t' : State} {h : Handle} {delivery wake admitted : StationSet}
    (f : Offered s t h delivery wake admitted) (sessions : s'.sessions = s.sessions) (intake : s'.intake = s.intake)
    (held : ∀ q k, (s'.frame k).holds.heldBy q = (s.frame k).holds.heldBy q ∧ (s'.frame k).chain = (s.frame k).chain)
    (installed : s'.partition.installed = s.partition.installed) (now : s'.clock.now = s.clock.now)
    (after : t'.intake = t.intake) : Offered s' t' h delivery wake admitted where
  admits q := by
    rw [f.admits, intake, installed, State.charge_congr (held q), (held q h).2, State.session, State.session, sessions]
  intake q := by rw [after, f.intake, intake, now]

theorem admissionCounters_congr {s s' : State} {delivery wake asleep admitted : StationSet} {q : Station}
    (counters : s'.stationCounters.get q = s.stationCounters.get q) (sessions : s'.sessions = s.sessions)
    (intake : s'.intake = s.intake) :
    admissionCounters s' delivery wake asleep admitted q = admissionCounters s delivery wake asleep admitted q := by
  unfold admissionCounters
  rw [counters, intake, State.inSession_of_sessions sessions]

/-! ### The end of a good frame -/

/-- The hub with a good frame settled and counted, before its classification (R89, steps 1 and 2). -/
def State.counted (s : State) (h : Handle) : State :=
  (s.modifyFrame h fun f => { f with state := .settled, truncated := false, tooLong := false }).countGood
    (s.frame h).length

theorem State.arrived_eq (s : State) (h : Handle) : s.arrived h = (s.counted h).classify h .link := rfl

theorem State.counted_frame (s : State) (h k : Handle) : (s.counted h).frame k =
    if k = h then { s.frame h with state := .settled, truncated := false, tooLong := false } else s.frame k := by
  rw [State.counted, State.countGood_frame]
  exact State.modifyFrame_frame s h k _

theorem State.counted_seenAlike (s : State) (h : Handle) : SeenAlike s (s.counted h) h where
  entries := by simp [State.counted]
  generation := by simp [State.counted]
  sequence := by simp [State.counted]
  sessions := by simp [State.counted]
  mem := by simp [State.counted]
  chain := by rw [State.counted_frame, if_pos rfl]
  length := by rw [State.counted_frame, if_pos rfl]

theorem Signals.counted (s : State) (h : Handle) (q : Station) : Signals s (s.counted h) q fun _ => False := by
  have settled : Signals s (s.modifyFrame h fun f => { f with state := .settled, truncated := false, tooLong := false })
      q fun _ => False := Signals.quiet rfl rfl rfl rfl
  exact (settled.thenCountLink .goodFrames 1).thenCountLink .goodBytes _

theorem State.counted_linkCounters (s : State) (h : Handle) : (s.counted h).linkCounters = { s.linkCounters with
    goodFrames := satAdd s.linkCounters.goodFrames 1,
    goodBytes := satAdd s.linkCounters.goodBytes (s.frame h).length } := by
  simp [State.counted, State.countGood, LinkCounters.set, LinkCounters.get]

theorem Signals.countUndelivered (s : State) (n : Nat) (q : Station) :
    Signals s (s.countUndelivered n) q fun _ => False := by
  unfold State.countUndelivered
  split
  · exact Signals.countLink s .undelivered 1 q
  · exact Signals.quiet rfl rfl rfl rfl

theorem State.countUndelivered_linkCounters (s : State) (v : StationSet) :
    (s.countUndelivered (Station.all.filter (inSet v)).length).linkCounters = { s.linkCounters with
      undelivered := if v = 0 then satAdd s.linkCounters.undelivered 1 else s.linkCounters.undelivered } := by
  unfold State.countUndelivered
  simp only [admitted_count_eq_zero_iff]
  split <;> simp [LinkCounters.set, LinkCounters.get]

theorem State.settleFrame_frame {s : State} {h : Handle} (held : (s.frame h).holds = { Holds.none with fill := true })
    (untruncated : (s.frame h).truncated = false) (short : (s.frame h).tooLong = false) :
    (s.settleFrame h).frame h = { s.frame h with
      state := .settled, holds := { Holds.none with intake := (s.arrived h).admittedOf h },
      result := some (s.resultOf h .link (s.walkFrame h .link)) } := by
  have seen := s.counted_seenAlike h
  rw [State.settleFrame_eq]
  simp only [State.setReceiver_frame, State.dropFillHold_frame, State.countUndelivered_frame, State.admission_frame]
  simp only [State.arrived_eq, State.classify_frame, State.counted_frame, if_true, seen.resultOf, seen.walkFrame]
  simp [held, untruncated, short, Holds.none]

theorem State.settleFrame_frame_ne (s : State) {h k : Handle} (other : k ≠ h) :
    (s.settleFrame h).frame k = s.frame k := by
  rw [State.settleFrame_eq]
  simp only [State.setReceiver_frame, State.dropFillHold_frame, State.countUndelivered_frame, State.admission_frame]
  simp [State.arrived_eq, State.counted_frame, other]

/-- Settles O32: a good frame is settled and classified, and each station decides for itself whether it is admitted. -/
theorem goodFramesAreAdmitted : Obligations.GoodFramesAreAdmitted := by
  rintro s h result asleep storing held untruncated short whole ordinary rfl rfl
  have seen := s.counted_seenAlike h
  have ran : exec (.frameEnd (.checked (~~~ s.mac.rxCrc) false)) s = .next (State.closeEvent s (s.settleFrame h)) := by
    have notFlow : s.isFlowControl h = false := by
      rw [← Bool.not_eq_true, State.isFlowControl_iff]
      exact ordinary
    rw [exec_frameEnd_storing _ storing, endOutcome_good _ (.inl (by omega)),
      State.endFrame_settles untruncated short whole notFlow]
  have results : (s.counted h).resultOf h .link ((s.counted h).walkFrame h .link) =
      s.resultOf h .link (s.walkFrame h .link) := by rw [seen.resultOf, seen.walkFrame]
  have asleeps : (s.counted h).asleepOf h .link ((s.counted h).walkFrame h .link) =
      s.asleepOf h .link (s.walkFrame h .link) := by rw [seen.asleepOf, seen.walkFrame]
  have frame := State.settleFrame_frame held untruncated short
  obtain ⟨released, kept, only⟩ := State.closeEvent_oneChanged (b := s) (s := s.settleFrame h) (h := h)
    (by rw [held]; rfl) (fun k other => s.settleFrame_frame_ne other) (by simp)
  refine ⟨_, (s.arrived h).admittedOf h, ran, ?_, fun q => ?_, ?_, fun q => ?_, ?_, fun i => ?_, fun none => ?_,
    fun some => ?_, only, by simp, ?_, ?_⟩
  · have offered := State.classified_offered (s.counted h) h .link
    rw [results] at offered
    refine offered.congr seen.sessions.symm (by simp [State.counted]) (fun q k => ?_) (by simp [State.counted])
      (by simp [State.counted]) (by simp [State.settleFrame_eq, ← State.arrived_eq])
    rw [State.counted_frame]
    split
    · next here => rw [here]; exact ⟨rfl, rfl⟩
    · exact ⟨rfl, rfl⟩
  · have counters := State.classified_counters (s.counted h) h .link q
    rw [results, asleeps, admissionCounters_congr (s := s) (by simp [State.counted]) seen.sessions
      (by simp [State.counted])] at counters
    simpa [State.settleFrame_eq, State.arrived_eq] using counters
  · have admission : ((s.arrived h).admission h).1.linkCounters = (s.counted h).linkCounters := by
      simp [State.arrived_eq]
    have settled : (s.settleFrame h).linkCounters = (((s.arrived h).admission h).1.countUndelivered
      (Station.all.filter (inSet ((s.arrived h).admittedOf h))).length).linkCounters := by
        simp [State.settleFrame_eq, State.admission_count]
    rw [(State.closeEvent_keeps _ _).2.2.2.2.2.2.2.2.2.2.2.2.2.2.2.2.1, settled, State.countUndelivered_linkCounters,
      admission, State.counted_linkCounters]
  · have classified := Signals.classified (s.counted h) h .link q
    have offered : Signals s (((s.arrived h).admission h).1.countUndelivered ((s.arrived h).admission h).2) q _ :=
      ((Signals.counted s h q).trans classified).trans (Signals.countUndelivered _ _ q)
    have whole : Signals s (State.closeEvent s (s.settleFrame h)) q _ := offered.then_quiet
      (by rw [State.settleFrame_eq]; simp) (by rw [State.settleFrame_eq]; simp) (by rw [State.settleFrame_eq]; simp)
      (State.inSession_of_sessions (by rw [State.settleFrame_eq]; simp) q)
    refine whole.raised.congr_inSession fun into f => ?_
    have flag := admissionFlag_iff (h := h) (o := .link) ((seen.inSession q).trans into) f
    rw [results, asleeps] at flag
    simp only [results, asleeps, false_or, or_false]
    rw [State.arrived_eq, flag]
  · simp [State.settleFrame_eq, State.arrived_eq, State.classify_sequence, State.counted]
  · have entries : (State.closeEvent s (s.settleFrame h)).table.entries = (s.arrived h).table.entries := by
      simp [State.settleFrame_eq]
    rw [State.entry_of_entries entries, State.arrived_eq, State.classify_entry, seen.walkFrame, seen.entry]
  · have empty : ((s.settleFrame h).frame h).holds.isEmpty = true := by rw [frame, none]; rfl
    obtain ⟨free, list⟩ := released empty
    exact ⟨free, by rw [list, frame]⟩
  · have left : ((s.settleFrame h).frame h).holds.isEmpty = false := by
      rw [frame, ← Bool.not_eq_true, Holds.isEmpty_iff]
      exact fun ⟨_, _, intake, _⟩ => some intake
    obtain ⟨same, list⟩ := kept left
    exact ⟨same.trans frame, list⟩
  · exact State.closeEvent_answers (by simp [State.settleFrame_eq, State.arrived_eq, State.counted, State.setReceiver]) rfl rfl
  · rw [State.closeEvent_eq]
    apply State.ext <;> try simp [State.settleFrame_eq, State.arrived_eq, State.counted]
    apply SteeringTable.ext <;> simp

end Sys2Proof.Machine
end

section
/-! TXPOST, step by step (R116 to R118). -/

namespace Sys2Proof.Machine

/-! ### The steps after the transmitter is told -/

/-- What a taking of work can change of a hub. -/
def State.withWork (s : State) (store : FrameStore) (posts : Per PostPath) (scheduler : Scheduler) (mac : Mac) : State :=
  { s with store := store, posts := posts, scheduler := scheduler, mac := mac }

section
variable (s : State) (p : Station) (store : FrameStore) (posts : Per PostPath) (scheduler : Scheduler) (mac : Mac)

theorem State.raiseFlag_withWork (f : Flag) : (s.withWork store posts scheduler mac).raiseFlag f p =
    (s.raiseFlag f p).withWork store posts scheduler mac := by
  have into : (s.withWork store posts scheduler mac).inSession p = s.inSession p := rfl
  unfold State.raiseFlag
  rw [into]
  split <;> rfl

theorem State.countStation_withWork (c : StationCounter) (n : Nat) :
    (s.withWork store posts scheduler mac).countStation p c n =
      (s.countStation p c n).withWork store posts scheduler mac := by
  have same : (s.withWork store posts scheduler mac).stationCounters = s.stationCounters := rfl
  unfold State.countStation
  rw [same]
  dsimp only
  split
  · exact State.raiseFlag_withWork { s with stationCounters := _ } p store posts scheduler mac .saturated
  · rfl

theorem State.countPost_withWork (n : Nat) : (s.withWork store posts scheduler mac).countPost p n =
    (s.countPost p n).withWork store posts scheduler mac := by
  rw [State.countPost, State.countStation_withWork, State.countStation_withWork, ← State.countPost]

end

/-- The last steps of a post: the build hold goes and the post is counted; `w` are the ports as the answer leaves
them. -/
def State.postDone (s : State) (p : Station) (h : Handle) (d : Nat) (w : Per Port) : State :=
  { (s.dropBuildHold p h).countPost p d with ports := w }

section
variable (s : State) (p : Station) (h : Handle) (d : Nat) (w : Per Port)

theorem State.postDone_store : (s.postDone p h d w).store = (s.dropBuildHold p h).store := by simp [State.postDone]

@[simp] theorem State.postDone_mac : (s.postDone p h d w).mac = s.mac := by simp [State.postDone]
@[simp] theorem State.postDone_posts : (s.postDone p h d w).posts = s.posts := by simp [State.postDone]
@[simp] theorem State.postDone_scheduler : (s.postDone p h d w).scheduler = s.scheduler := by simp [State.postDone]
@[simp] theorem State.postDone_clock : (s.postDone p h d w).clock = s.clock := by simp [State.postDone]
@[simp] theorem State.postDone_partition : (s.postDone p h d w).partition = s.partition := by simp [State.postDone]

theorem State.postDone_frame (k : Handle) : (s.postDone p h d w).frame k = (s.dropBuildHold p h).frame k :=
  State.frame_of_frames (congrArg FrameStore.frames (s.postDone_store p h d w)) k

theorem State.postDone_weights : (s.postDone p h d w).weights = s.weights := by
  simp [State.weights, State.share]

theorem State.postDone_headLengths : (s.postDone p h d w).headLengths = s.headLengths := by
  simp [State.headLengths]

/-- The last steps do not touch what the transmitter works on. -/
theorem State.postDone_withWork (store : FrameStore) (posts : Per PostPath) (scheduler : Scheduler) (mac : Mac) :
    (s.withWork store posts scheduler mac).postDone p h d w = (s.postDone p h d w).withWork
      ((s.withWork store s.posts s.scheduler s.mac).dropBuildHold p h).store posts scheduler mac := by
  have dropped : (s.withWork store posts scheduler mac).dropBuildHold p h = (s.dropBuildHold p h).withWork
      ((s.withWork store s.posts s.scheduler s.mac).dropBuildHold p h).store posts scheduler mac := rfl
  rw [State.postDone, dropped, State.countPost_withWork]
  rfl

end

/-- A wire hold that comes and a build hold that goes do not meet. -/
theorem State.dropBuildHold_wire (s : State) (p : Station) (h k : Handle) :
    ((s.setFrame k { s.frame k with holds := { (s.frame k).holds with wire := true } }).dropBuildHold p h).store =
    { (s.dropBuildHold p h).store with
      frames := (s.dropBuildHold p h).store.frames.set k { (s.dropBuildHold p h).frame k with
        holds := { ((s.dropBuildHold p h).frame k).holds with wire := true } } } := by
  apply FrameStore.ext
  · rfl
  · rfl
  · refine Table.ext_get fun j => ?_
    have left := State.dropBuildHold_frame
      (s.setFrame k { s.frame k with holds := { (s.frame k).holds with wire := true } }) p h j
    have right := State.setFrame_frame (s.dropBuildHold p h) k j
      { (s.dropBuildHold p h).frame k with holds := { ((s.dropBuildHold p h).frame k).holds with wire := true } }
    refine Eq.trans left (Eq.trans ?_ right.symm)
    rw [State.setFrame_frame, State.dropBuildHold_frame, State.dropBuildHold_frame]
    by_cases here : j = k
    · subst here; simp
    · simp [here]

/-- Taking work and the last steps of a post may change places. -/
theorem TookWork.postDone {s t : State} (k : TookWork s t) (p : Station) (h : Handle) (d : Nat) (w : Per Port) :
    TookWork (s.postDone p h d w) (t.postDone p h d w) where
  busy other := by
    rw [State.postDone_mac] at other
    rw [k.busy other]
  request speed quanta up idle pending := by
    rw [State.postDone_mac] at up idle pending
    have same := State.postDone_withWork s p h d w s.store s.posts s.scheduler { s.mac with
      tx := .flow quanta (s.clock.now + 672 * speed.bitTime), gen := { s.mac.gen with pending := none } }
    rw [k.request speed quanta up idle pending, State.postDone_mac, State.postDone_clock]
    refine same.trans ?_
    apply State.ext <;> simp [State.withWork, State.postDone_store]
  paused pending paused := by
    rw [State.postDone_mac] at pending paused
    rw [k.paused pending paused]
  nothing up idle pending unpaused v examined := by
    rw [State.postDone_mac] at up idle pending unpaused
    rw [State.postDone_weights, State.postDone_headLengths, State.postDone_scheduler] at examined
    rw [k.nothing up idle pending unpaused v examined]
    refine (State.postDone_withWork s p h d w s.store s.posts v s.mac).trans ?_
    apply State.ext <;> simp [State.withWork, State.postDone_store]
  chosen speed up idle pending unpaused q v e more examined queue busy := by
    rw [State.postDone_mac] at up idle pending unpaused
    rw [State.postDone_weights, State.postDone_headLengths, State.postDone_scheduler] at examined
    rw [State.postDone_posts] at queue
    have busy : (s.frame e.handle).state ≠ .free := by
      rw [State.postDone_frame, State.dropBuildHold_frame] at busy
      exact busy
    rw [k.chosen speed up idle pending unpaused q v e more examined queue busy]
    refine (State.postDone_withWork s p h d w _ _ v _).trans ?_
    have wired := State.dropBuildHold_wire s p h e.handle
    rw [← State.postDone_store s p h d w, ← State.postDone_frame s p h d w] at wired
    refine (congrArg (fun x => State.withWork _ x _ _ _) wired).trans ?_
    apply State.ext <;> simp [State.withWork]

end Sys2Proof.Machine
end

section
/-! TXPOST as a whole: the delivery, the wire or the containment, and the counts (R116 to R118). -/

namespace Sys2Proof.Machine

/-! ### The origin gets nothing of its own post -/

theorem State.effectiveTargets_origin (s : State) (p owner : Station) (targets : StationSet) :
    inSet (s.effectiveTargets (.station p) owner targets) p = false := by
  simp [State.effectiveTargets]

theorem Walk.hit_origin {s : State} {p : Station} {w : Walk} (none : inSet w.delivery p = false) (i : EntryIndex)
    (c : Contents) (owner : Station) : inSet (w.hit s i c (.station p) owner).delivery p = false := by
  unfold Walk.hit Walk.act
  cases c.action with
  | deliver => simp [none, State.effectiveTargets_origin]
  | discard => simp [none]
  | contain =>
    dsimp only
    split <;> exact none

theorem State.walkFrame_origin (s : State) (p : Station) (h : Handle) :
    inSet (s.walkFrame h (.station p)).delivery p = false :=
  State.walk_induction (P := fun w => inSet w.delivery p = false) (fun _ i c owner none => Walk.hit_origin none i c owner)
    s.evaluationOrder (by simp [Walk.start])

theorem State.defaultDelivery_origin (s : State) (p : Station) (h : Handle) :
    inSet (s.defaultDelivery h (.station p)) p = false := by
  simp [State.defaultDelivery]

theorem State.reached_origin (s : State) (p : Station) (h : Handle) :
    inSet (if (s.walkFrame h (.station p)).last.isNone then s.defaultDelivery h (.station p)
      else (s.walkFrame h (.station p)).delivery) p = false := by
  split
  · exact s.defaultDelivery_origin p h
  · exact s.walkFrame_origin p h

/-! ### The delivery of a post -/

section
variable (s : State) (p : Station) (h : Handle) (v : PostFlags)

/-- The result record that a post's classification writes. -/
def State.postResult : ClassResult := s.resultOf h (.station p) (s.walkFrame h (.station p))

/-- The stations that a post is offered to: none when it goes to the wire only. -/
def State.postDelivery : StationSet := if v = .wireOnly then 0 else (s.postResult p h).delivery

/-- The asleep drops of a post: none when it goes to the wire only. -/
def State.postAsleep : StationSet :=
  if v = .wireOnly then 0 else s.asleepOf h (.station p) (s.walkFrame h (.station p))

theorem State.postDelivery_origin : inSet (s.postDelivery p h v) p = false := by
  unfold State.postDelivery
  split
  · exact inSet_empty p
  · simp only [State.postResult, State.resultOf, inSet_and, s.reached_origin p h, Bool.false_and]

theorem State.postAsleep_origin : inSet (s.postAsleep p h v) p = false := by
  unfold State.postAsleep
  split
  · exact inSet_empty p
  · rw [State.asleepOf, State.asleep, inSet_stationsWhere, s.reached_origin p h]
    rfl

theorem State.settlePost_seenAlike : SeenAlike s (s.settlePost p h) h where
  entries := by simp
  generation := by simp
  sequence := by simp
  sessions := by simp
  mem := by simp
  chain := by simp
  length := by simp

theorem State.settlePost_stationCounters : (s.settlePost p h).stationCounters = s.stationCounters := by simp

theorem State.settlePost_result : (s.settlePost p h).resultOf h (.station p)
    ((s.settlePost p h).walkFrame h (.station p)) = s.postResult p h := by
  rw [(s.settlePost_seenAlike p h).resultOf, (s.settlePost_seenAlike p h).walkFrame]
  rfl

theorem State.settlePost_asleep : (s.settlePost p h).asleepOf h (.station p)
    ((s.settlePost p h).walkFrame h (.station p)) = s.asleepOf h (.station p) (s.walkFrame h (.station p)) := by
  rw [(s.settlePost_seenAlike p h).asleepOf, (s.settlePost_seenAlike p h).walkFrame]

theorem State.served_wireOnly : s.served p h .wireOnly = s.settlePost p h := rfl

variable {v} in
theorem State.served_offers (offers : v ≠ .wireOnly) : s.served p h v = ((s.classified p h).admission h).1 := by
  rw [State.served, State.deliverPost, if_neg offers]
  rfl

theorem State.served_offered : Offered s (s.served p h v) h (s.postDelivery p h v) (s.postResult p h).wake
    (s.delivered p h v) := by
  have held : ∀ (q : Station) (k : Handle), (s.frame k).holds.heldBy q = ((s.settlePost p h).frame k).holds.heldBy q ∧
      (s.frame k).chain = ((s.settlePost p h).frame k).chain := fun q k => by
    rw [State.settlePost_frame]; exact ⟨rfl, rfl⟩
  by_cases only : v = .wireOnly
  · subst only
    have nobody : ∀ q, inSet 0 q = false := inSet_empty
    refine ⟨fun q => ?_, fun q => ?_⟩
    · simp [State.delivered, State.postDelivery]
    · simp [State.delivered, State.served_wireOnly]
  · have offered := State.classified_offered (s.settlePost p h) h (.station p)
    rw [State.settlePost_result] at offered
    rw [State.postDelivery, State.delivered, if_neg only, if_neg only, State.served_offers s p h only]
    exact offered.congr (by simp) (by simp) held (by simp) (by simp) rfl

theorem State.served_counters (q : Station) : (s.served p h v).stationCounters.get q =
    admissionCounters s (s.postDelivery p h v) (s.postResult p h).wake (s.postAsleep p h v) (s.delivered p h v) q := by
  by_cases only : v = .wireOnly
  · subst only
    simp [State.served_wireOnly, admissionCounters, State.postDelivery, State.postAsleep, State.delivered]
  · have counters := State.classified_counters (s.settlePost p h) h (.station p) q
    rw [State.settlePost_result, State.settlePost_asleep, admissionCounters_congr (s := s) (by simp) (by simp) (by simp)]
      at counters
    rw [State.postDelivery, State.postAsleep, State.delivered, if_neg only, if_neg only, if_neg only,
      State.served_offers s p h only]
    exact counters

theorem Signals.served (q : Station) : ∃ a, Signals s (s.served p h v) q a ∧ (s.inSession q = true → ∀ f,
    a f ↔ admissionFlag (s.postDelivery p h v) (s.postResult p h).wake (s.postAsleep p h v) (s.delivered p h v) q f) := by
  have settled : Signals s (s.settlePost p h) q fun _ => False :=
    Signals.quiet (by simp) (by simp) (by simp) (State.inSession_of_sessions (by simp) q)
  by_cases only : v = .wireOnly
  · subst only
    refine ⟨_, settled, fun _ f => ?_⟩
    simp [admissionFlag, State.postDelivery, State.postAsleep, State.delivered]
  · rw [State.served_offers s p h only]
    refine ⟨_, settled.trans (Signals.classified (s.settlePost p h) h (.station p) q), fun into f => ?_⟩
    have flag := admissionFlag_iff (h := h) (o := .station p) (((s.settlePost_seenAlike p h).inSession q).trans into) f
    rw [State.settlePost_result, State.settlePost_asleep] at flag
    rw [false_or, State.settlePost_result, State.settlePost_asleep, State.postDelivery, State.postAsleep, State.delivered,
      if_neg only, if_neg only, if_neg only]
    exact flag.symm

/-- The number of local deliveries of a post. -/
def State.deliveries : Nat := ((s.settlePost p h).deliverPost p h v).2

theorem State.deliveries_eq : s.deliveries p h v = (Station.all.filter (inSet (s.delivered p h v))).length := by
  unfold State.deliveries State.deliverPost State.delivered
  split
  · exact (admitted_count_eq_zero_iff.mpr rfl).symm
  · exact State.admission_count _ h

theorem State.delivered_origin : inSet (s.delivered p h v) p = false := by
  rw [← Bool.not_eq_true, (s.served_offered p h v).admits, s.postDelivery_origin p h v]
  simp

theorem State.served_frame (held : (s.frame h).holds = { Holds.none with build := setOf p }) (k : Handle) :
    (s.served p h v).frame k = if k = h then { s.frame h with
        state := .settled, holds := { Holds.none with build := setOf p, intake := s.delivered p h v },
        result := if v = .wireOnly then (s.frame h).result else some (s.postResult p h) } else s.frame k := by
  by_cases only : v = .wireOnly
  · subst only
    rw [State.served_wireOnly, State.settlePost_frame]
    by_cases here : k = h
    · simp [here, held, State.delivered, Holds.none]
    · simp [here]
  · rw [State.served_offers s p h only, State.admission_frame, State.classified, State.classify_frame,
      State.settlePost_frame, State.settlePost_result, State.delivered, if_neg only]
    by_cases here : k = h
    · simp [here, held, only, Holds.none, State.classified]
    · simp [here]

theorem State.served_sequence : (s.served p h v).sequence = if v = .wireOnly then s.sequence else s.sequence + 1 := by
  by_cases only : v = .wireOnly
  · subst only
    simp [State.served_wireOnly]
  · rw [State.served_offers s p h only, if_neg only]
    simp [State.classified, State.classify_sequence]

theorem State.served_entry (i : EntryIndex) : (s.served p h v).entry i =
    if v ≠ .wireOnly ∧ i ∈ (s.walkFrame h (.station p)).matched
      then { s.entry i with hits := satAdd (s.entry i).hits 1 } else s.entry i := by
  have seen := s.settlePost_seenAlike p h
  by_cases only : v = .wireOnly
  · subst only
    simp [State.served_wireOnly, seen.entry]
  · have table : ((s.classified p h).admission h).1.table = (s.classified p h).table := by simp
    rw [State.served_offers s p h only, State.entry_of_entries (congrArg SteeringTable.entries table), State.classified,
      State.classify_entry, seen.walkFrame, seen.entry]
    simp [only]

/-! ### The wire or the containment -/

/-- Whether a post goes to the wire (Table 6-3), by its flags and the walk. -/
def State.postWired : Bool :=
  match v with
  | .wireOnly => true
  | .localOnly => false
  | .plain => !(s.walkFrame h (.station p)).keepOff

variable (held : (s.frame h).holds = { Holds.none with build := setOf p })
include held in
theorem State.served_goesToWire : (s.served p h v).goesToWire h v = s.postWired p h v := by
  cases v with
  | wireOnly => rfl
  | localOnly => rfl
  | plain =>
    have result : ((s.served p h .plain).frame h).result = some (s.postResult p h) := by
      rw [State.served_frame s p h .plain held, if_pos rfl]
      rfl
    have wire : (s.postResult p h).wire =
        some (if (s.walkFrame h (.station p)).keepOff then WireDecision.contained else .wire) := rfl
    simp only [State.goesToWire, result, Option.bind_some, wire, State.postWired]
    cases (s.walkFrame h (.station p)).keepOff <;> rfl

/-- The hub with the post entry or the CONTAINED completion of a post, before the transmitter is told (R118). -/
def State.ready : State :=
  if s.postWired p h v then (s.served p h v).queued p h (s.deliveries p h v)
  else (s.served p h v).containPost p h (s.deliveries p h v)

/-- The hub with a post counted, but for what the transmitter makes of it. -/
def State.postUntold : State := ((s.ready p h v).dropBuildHold p h).countPost p (s.deliveries p h v)

include held in
theorem State.post_wired (wired : s.postWired p h v = true) : (s.post p h v).1 = State.closeEvent s
    (((s.ready p h v).takeWork.dropBuildHold p h).countPost p (s.deliveries p h v)) := by
  have goes : ((s.settlePost p h).deliverPost p h v).1.goesToWire h v = true :=
    (s.served_goesToWire p h v held).trans wired
  rw [State.post_eq, State.routed, if_pos goes, State.queuePost_eq, State.ready, if_pos wired]
  rfl

include held in
theorem State.post_contained (kept : s.postWired p h v = false) :
    (s.post p h v).1 = State.closeEvent s (s.postUntold p h v) := by
  have stays : ((s.settlePost p h).deliverPost p h v).1.goesToWire h v = false :=
    (s.served_goesToWire p h v held).trans kept
  rw [State.post_eq, State.routed, stays, State.postUntold, State.ready, kept]
  rfl

theorem State.ready_keeps : (s.ready p h v).clock = s.clock ∧ (s.ready p h v).pins = s.pins ∧
    (s.ready p h v).store.mem = s.store.mem ∧ (s.ready p h v).store.freeList = s.store.freeList ∧
    (s.ready p h v).table.drafts = s.table.drafts ∧ (s.ready p h v).table.generation = s.table.generation ∧
    (s.ready p h v).sessions = s.sessions ∧ (s.ready p h v).scheduler = s.scheduler ∧ (s.ready p h v).mac = s.mac ∧
    (s.ready p h v).partition = s.partition ∧ (s.ready p h v).linkCounters = s.linkCounters ∧
    (s.ready p h v).pending = s.pending := by
  unfold State.ready State.served
  split <;> simp [State.queued]

theorem State.ready_same : (s.ready p h v).table = (s.served p h v).table ∧
    (s.ready p h v).sequence = (s.served p h v).sequence ∧ (s.ready p h v).intake = (s.served p h v).intake := by
  unfold State.ready
  split <;> simp [State.queued]

include held in
/-- The record of the posted frame, with the holds of its deliveries and of the wire. -/
theorem State.untold_frame (k : Handle) : (s.postUntold p h v).frame k = if k = h then { s.frame h with
      state := .settled, holds := { Holds.none with
        intake := s.delivered p h v, post := if s.postWired p h v then setOf p else 0 },
      result := if v = .wireOnly then (s.frame h).result else some (s.postResult p h) } else s.frame k := by
  have erased : eraseStation (setOf p) p = 0#4 := set_ext fun q => by simp [inSet_erase]
  have added : insertStation 0#4 p = setOf p := BitVec.zero_or
  have served := s.served_frame p h v held k
  rw [State.postUntold, State.countPost_frame, State.dropBuildHold_frame, State.ready]
  cases s.postWired p h v with
  | true =>
    rw [if_pos rfl, State.queued_frame, served]
    by_cases here : k = h
    · simp [here, erased, added, Holds.none]
    · simp [here]
  | false =>
    rw [if_neg nofun, State.containPost_frame, served]
    by_cases here : k = h
    · simp [here, erased, Holds.none]
    · simp [here]

theorem State.untold_keeps : (s.postUntold p h v).clock = s.clock ∧ (s.postUntold p h v).pins = s.pins ∧
    (s.postUntold p h v).store.mem = s.store.mem ∧ (s.postUntold p h v).store.freeList = s.store.freeList ∧
    (s.postUntold p h v).table.drafts = s.table.drafts ∧
    (s.postUntold p h v).table.generation = s.table.generation ∧ (s.postUntold p h v).sessions = s.sessions ∧
    (s.postUntold p h v).scheduler = s.scheduler ∧ (s.postUntold p h v).mac = s.mac ∧
    (s.postUntold p h v).partition = s.partition ∧ (s.postUntold p h v).linkCounters = s.linkCounters ∧
    (s.postUntold p h v).pending = s.pending := by
  simp [State.postUntold, State.ready_keeps]

theorem State.untold_same : (s.postUntold p h v).table = (s.served p h v).table ∧
    (s.postUntold p h v).sequence = (s.served p h v).sequence ∧
    (s.postUntold p h v).intake = (s.served p h v).intake := by
  simp [State.postUntold, State.ready_same]

theorem State.served_posts : (s.served p h v).posts =
    s.posts.set p { s.posts.get p with number := (s.posts.get p).number + 1 } := by
  simp [State.served, State.settlePost]

include held in
theorem State.untold_posts : (s.postUntold p h v).posts = s.posts.set p
    { queue := (s.posts.get p).queue ++ if s.postWired p h v then
        [{ handle := h, number := (s.posts.get p).number + 1, deliveries := s.deliveries p h v,
           wireLength := max (s.frame h).length 60, started := false }] else [],
      completions := (s.posts.get p).completions ++ if s.postWired p h v then [] else
        [{ handle := h, number := (s.posts.get p).number + 1, outcome := .contained,
           deliveries := s.deliveries p h v, wireLength := 0 }],
      number := (s.posts.get p).number + 1 } := by
  have length : ((s.served p h v).frame h).length = (s.frame h).length := by
    rw [State.served_frame s p h v held, if_pos rfl]
  have twice : ∀ x y, (s.posts.set p x).set p y = s.posts.set p y := fun x y =>
    Per.ext_get fun q => by simp only [Per.get_set]; split <;> rfl
  have same : (s.postUntold p h v).posts = (s.ready p h v).posts := by simp [State.postUntold]
  rw [same, State.ready]
  cases s.postWired p h v with
  | true => simp [State.queued, State.served_posts, length, twice, wireLengthOf, minWireLength]
  | false => simp [State.containPost, State.complete_posts, State.served_posts, twice]

theorem State.untold_counters_ne {q : Station} (other : q ≠ p) :
    (s.postUntold p h v).stationCounters.get q = (s.served p h v).stationCounters.get q := by
  have ready : (s.ready p h v).stationCounters.get q = (s.served p h v).stationCounters.get q := by
    unfold State.ready
    split
    · rfl
    · simp [State.containPost, Per.get_set_ne _ _ other]
  simp [State.postUntold, State.countPost, Per.get_set_ne _ _ other, ready]

/-- The origin's own counters: the post, its deliveries, and its containment. -/
theorem State.untold_counters_self : (s.postUntold p h v).stationCounters.get p = { s.stationCounters.get p with
    posted := satAdd (s.stationCounters.get p).posted 1,
    localDeliveries := satAdd (s.stationCounters.get p).localDeliveries (s.deliveries p h v),
    contained := if s.postWired p h v then (s.stationCounters.get p).contained
      else satAdd (s.stationCounters.get p).contained 1 } := by
  have served : (s.served p h v).stationCounters.get p = s.stationCounters.get p := by
    rw [State.served_counters]
    simp [admissionCounters, s.postDelivery_origin p h v, s.postAsleep_origin p h v, s.delivered_origin p h v]
  have ready : (s.ready p h v).stationCounters.get p = { s.stationCounters.get p with
      contained := if s.postWired p h v then (s.stationCounters.get p).contained
        else satAdd (s.stationCounters.get p).contained 1 } := by
    rw [State.ready]
    cases s.postWired p h v with
    | true => exact served
    | false => simp [State.containPost, served, StationCounters.set, StationCounters.get]
  simp [State.postUntold, State.countPost, ready, StationCounters.set, StationCounters.get]

theorem Signals.ready (q : Station) : Signals (s.served p h v) (s.ready p h v) q fun f =>
    f = .txdone ∧ q = p ∧ s.postWired p h v = false := by
  unfold State.ready
  cases s.postWired p h v with
  | true =>
    refine Signals.congr (a := fun _ => False) (Signals.quiet rfl rfl rfl rfl) fun f => ?_
    simp
  | false =>
    exact ((Signals.complete _ p _ q).thenCountStation p .contained 1).congr fun f => by simp

theorem Signals.untold (q : Station) : ∃ a, Signals s (s.postUntold p h v) q a ∧ (s.inSession q = true → ∀ f,
    a f ↔ admissionFlag (s.postDelivery p h v) (s.postResult p h).wake (s.postAsleep p h v) (s.delivered p h v) q f ∨
      (f = .txdone ∧ q = p ∧ s.postWired p h v = false)) := by
  obtain ⟨a, served, flags⟩ := Signals.served s p h v q
  have dropped : Signals s ((s.ready p h v).dropBuildHold p h) q _ :=
    (served.trans (Signals.ready s p h v q)).then_quiet rfl rfl rfl rfl
  exact ⟨_, (dropped.thenCountStation p .posted 1).thenCountStation p .localDeliveries _,
    fun into f => or_congr_left (flags into f)⟩

include held in
theorem State.untold_held (wired : s.postWired p h v = true) :
    inSet ((s.postUntold p h v).frame h).holds.post p = true := by
  rw [State.untold_frame s p h v held, if_pos rfl, wired]
  simp

include held in
theorem State.ready_frame_ne {k : Handle} (other : k ≠ h) : (s.ready p h v).frame k = s.frame k := by
  have untold := State.untold_frame s p h v held k
  rwa [State.postUntold, State.countPost_frame, State.dropBuildHold_frame, if_neg other, if_neg other] at untold

/-- A post that goes to the wire takes no frame's last hold. -/
theorem State.closeEvent_untold (wired : s.postWired p h v = true)
    (held : (s.frame h).holds = { Holds.none with build := setOf p }) :
    State.closeEvent s (s.postUntold p h v) = s.postUntold p h v := by
  have kept := s.untold_keeps p h v
  refine State.closeEvent_nothing (by simp [kept]) (fun k => ?_) (thresholdsChanged_of_eq (by simp [kept]))
  by_cases here : k = h
  · subst here
    rw [lostLastHold, Holds.nonempty_of_post (State.untold_held s p k v held wired), Bool.and_false]
  · rw [State.untold_frame s p h v held, if_neg here, lostLastHold_self]

/-- Nor does it with the transmitter told. -/
theorem State.closeEvent_told (wired : s.postWired p h v = true)
    (held : (s.frame h).holds = { Holds.none with build := setOf p }) (d : Nat) :
    State.closeEvent s (((s.ready p h v).takeWork.dropBuildHold p h).countPost p d) =
      ((s.ready p h v).takeWork.dropBuildHold p h).countPost p d := by
  have kept := s.ready_keeps p h v
  refine State.closeEvent_nothing (by simp [kept]) (fun k => ?_) (thresholdsChanged_of_eq (by simp [kept]))
  by_cases here : k = h
  · subst here
    have post := State.untold_held s p k v held wired
    rw [State.postUntold, State.countPost_frame, State.dropBuildHold_frame] at post
    refine Bool.and_eq_false_iff.mpr (.inr (Holds.nonempty_of_post (p := p) ?_))
    rw [State.countPost_frame, State.dropBuildHold_frame]
    simpa using post
  · have same : (((s.ready p h v).takeWork.dropBuildHold p h).countPost p d).frame k = (s.ready p h v).takeWork.frame k := by
      rw [State.countPost_frame, State.dropBuildHold_frame, if_neg here]
    rw [same]
    cases empty : ((s.ready p h v).takeWork.frame k).holds.isEmpty with
    | false => rw [lostLastHold, empty, Bool.and_false]
    | true =>
      have before := State.takeWork_held empty
      rw [State.ready_frame_ne s p h v held here] at before
      rw [lostLastHold, before]
      rfl

end

theorem postFlagsOf_small {flags : Byte} (small : flags.toNat ≤ 2) : ∃ v, postFlagsOf flags = some v ∧
    (flags = 1 ↔ v = .wireOnly) ∧ (flags = 0 ↔ v = .plain) := by
  have cases : flags = 0 ∨ flags = 1 ∨ flags = 2 := by bv_omega
  rcases cases with rfl | rfl | rfl
  · exact ⟨.plain, rfl, by simp, by simp⟩
  · exact ⟨.wireOnly, rfl, by simp, by simp⟩
  · exact ⟨.localOnly, rfl, by simp, by simp⟩

theorem effectOf_txpost {p : Station} {handle flags : Byte} {s : State} {h : Handle} {v : PostFlags}
    (build : s.namedBuild p handle = some h) (known : postFlagsOf flags = some v) :
    effectOf .txpost p [handle, flags] s =
      ((s.post p h v).1, answer [(s.posts.get p).number + 1, BitVec.ofNat 8 (s.deliveries p h v)]) := by
  show txpostEffect p handle flags s = _
  simp only [txpostEffect, build, known]
  rfl

/-- Settles O40: the frame is delivered, queued for the wire or contained, and counted, in the steps of R117. -/
theorem txpostRunsItsSteps : Obligations.TxpostRunsItsSteps := by
  rintro p handle flags s h result wired delivery asleep carries active named small building held rfl rfl rfl rfl
  have allowed : (s.session p).state ∈ sessionsFor .txpost := by simp [active, sessionsFor]
  obtain ⟨v, known, only, plain⟩ := postFlagsOf_small small
  have build : s.namedBuild p handle = some h := State.namedBuild_eq_some_iff.mpr
    ⟨named, State.inBuildSet_iff.mpr ⟨building, by simp [held]⟩⟩
  have wires : (flags == 1 || (flags == 0 && !(s.walkFrame h (.station p)).keepOff)) = s.postWired p h v := by
    have one : (flags == 1) = decide (v = .wireOnly) := by rw [Bool.eq_iff_iff, beq_iff_eq, only, decide_eq_true_iff]
    have zero : (flags == 0) = decide (v = .plain) := by rw [Bool.eq_iff_iff, beq_iff_eq, plain, decide_eq_true_iff]
    rw [one, zero]
    cases v <;> simp [State.postWired]
  obtain ⟨t, ran, answered, same⟩ := exec_answers (i := .txpost p handle flags) _ _ rfl rfl carries allowed
    (effectOf_txpost build known)
  have kept := s.untold_keeps p h v
  have frame := s.untold_frame p h v held
  obtain ⟨released, stays, others⟩ := State.closeEvent_oneChanged (b := s) (s := s.postUntold p h v) (h := h)
    (by rw [held]; exact Holds.nonempty_of_build (p := p) (by simp))
    (fun k other => by rw [frame, if_neg other]) (by simp [kept])
  simp only [only, wires]
  refine ⟨t, { State.closeEvent s (s.postUntold p h v) with ports := t.ports }, s.delivered p h v, s.deliveries p h v,
    ran, fun wire => ?_, fun off => ?_, ?_, s.delivered_origin p h v, s.deliveries_eq p h v, answered, ?_,
    fun q other => ?_, ?_, fun q => ?_, ?_, fun i => ?_, fun off none => ?_, fun some => ?_, others, ?_, ?_, ?_⟩
  · have told : (s.post p h v).1 = ((s.ready p h v).takeWork.dropBuildHold p h).countPost p (s.deliveries p h v) :=
      (s.post_wired p h v held wire).trans (s.closeEvent_told p h v wire held _)
    rw [told] at same
    rw [s.closeEvent_untold p h v wire held, same]
    exact (s.ready p h v).takeWork_tookWork.postDone p h (s.deliveries p h v) t.ports
  · rw [s.post_contained p h v held off] at same
    exact same
  · have offered := s.served_offered p h v
    rw [State.postDelivery] at offered
    exact offered.congr rfl rfl (fun _ _ => ⟨rfl, rfl⟩) rfl rfl (by simp [s.untold_same p h v])
  · simp [State.untold_posts s p h v held]
  · have counters := s.served_counters p h v q
    rw [← s.untold_counters_ne p h v other] at counters
    exact Eq.trans (by simp) counters
  · simp [s.untold_counters_self p h v]
  · obtain ⟨a, untold, flags⟩ := Signals.untold s p h v q
    have whole : Signals s { State.closeEvent s (s.postUntold p h v) with ports := t.ports } q a :=
      untold.then_quiet (by simp) (by simp) (by simp) (State.inSession_of_sessions (by simp) q)
    refine (whole.flags (by simp [kept])).congr_inSession fun into f => ?_
    rw [flags into, State.postDelivery, State.postAsleep, or_assoc]
    rfl
  · rw [← s.served_sequence p h v, ← (s.untold_same p h v).2.1]
    simp
  · have entry := s.served_entry p h v i
    rw [← State.entry_of_entries (t := { State.closeEvent s (s.postUntold p h v) with ports := t.ports })
      (by simp [s.untold_same p h v]) i] at entry
    simp only [ne_eq, only]
    exact entry
  · have empty : ((s.postUntold p h v).frame h).holds.isEmpty = true := by
      rw [frame, if_pos rfl, off, none]; rfl
    obtain ⟨free, list⟩ := released empty
    exact ⟨free, by rw [frame, if_pos rfl] at list; exact list⟩
  · have left : ((s.postUntold p h v).frame h).holds.isEmpty = false := by
      rw [frame, if_pos rfl, ← Bool.not_eq_true, Holds.isEmpty_iff]
      rintro ⟨-, -, intake, -, post, -⟩
      rcases some with wire | admits
      · rw [wire] at post
        have own : inSet (setOf p) p = true := by simp
        rw [show setOf p = 0 from post] at own
        exact absurd own (by simp)
      · exact admits intake
    obtain ⟨same, list⟩ := stays left
    exact ⟨list, same.trans ((frame h).trans (if_pos rfl))⟩
  · simp [kept]
  · exact (State.closeEvent_answers (c := s) kept.2.2.2.2.2.2.2.2.1 rfl rfl).to_eq rfl rfl rfl rfl
  · rw [State.closeEvent_eq]
    apply State.ext <;> try simp [kept]
    apply SteeringTable.ext <;> simp [kept]

end Sys2Proof.Machine
end

section
/-! SUPPORT. The effects of the commands that have input bytes neither read nor write a port: each operation they
are made of commutes with a change of the ports. -/

namespace Sys2Proof.Machine

/-! ### Other ports under the same hub -/

/-- The hub with other ports. -/
def State.withPorts (s : State) (w : Per Port) : State := { s with ports := w }

theorem State.setPort_eq_withPorts (s : State) (p : Station) (v : Port) :
    s.setPort p v = s.withPorts (s.ports.set p v) := rfl

/-- A hub and what is answered with it; the hub with other ports, the answer as it was. -/
def State.pairWithPorts {α : Type} (e : State × α) (w : Per Port) : State × α := (e.1.withPorts w, e.2)

section
variable (s : State) (w : Per Port)

theorem State.withPorts_ite {c : Prop} [Decidable c] {a b x y : State} (left : a.withPorts w = x)
    (right : b.withPorts w = y) : (if c then a else b).withPorts w = if c then x else y := by
  split
  · exact left
  · exact right

theorem State.pairWithPorts_ite {α : Type} {c : Prop} [Decidable c] {a b x y : State × α}
    (left : State.pairWithPorts a w = x) (right : State.pairWithPorts b w = y) :
    State.pairWithPorts (if c then a else b) w = if c then x else y := by
  split
  · exact left
  · exact right

theorem State.withPorts_foldl {α : Type} {f g : State → α → State}
    (same : ∀ t a, (f t a).withPorts w = g (t.withPorts w) a) (l : List α) :
    (l.foldl f s).withPorts w = l.foldl g (s.withPorts w) :=
  (List.foldl_hom (fun t : State => t.withPorts w) fun t a => (same t a).symm).symm

/-! ### Flags and counters -/

theorem State.withPorts_raiseFlag (f : Flag) (p : Station) :
    (s.raiseFlag f p).withPorts w = (s.withPorts w).raiseFlag f p :=
  State.withPorts_ite w rfl rfl

theorem State.withPorts_raiseFlagAt (f : Flag) (set : StationSet) :
    (s.raiseFlagAt f set).withPorts w = (s.withPorts w).raiseFlagAt f set := by
  refine State.withPorts_foldl s w (fun t p => ?_) _
  exact State.withPorts_ite w (t.withPorts_raiseFlag w f p) rfl

theorem State.withPorts_raiseFlagEverywhere (f : Flag) :
    (s.raiseFlagEverywhere f).withPorts w = (s.withPorts w).raiseFlagEverywhere f :=
  State.withPorts_foldl s w (fun t p => t.withPorts_raiseFlag w f p) _

theorem State.withPorts_countStation (p : Station) (c : StationCounter) (n : Nat) :
    (s.countStation p c n).withPorts w = (s.withPorts w).countStation p c n :=
  State.withPorts_ite w (State.withPorts_raiseFlag _ w .saturated p) rfl

theorem State.withPorts_countDrop (p : Station) (c : StationCounter) :
    (s.countDrop p c).withPorts w = (s.withPorts w).countDrop p c := by
  rw [State.countDrop, State.withPorts_raiseFlag, State.withPorts_countStation, State.countDrop]

/-! ### The transmitter and the generator -/

theorem State.withPorts_startStation (speed : Speed) (p : Station) :
    (s.startStation speed p).withPorts w = (s.withPorts w).startStation speed p := by
  have posts : (s.withPorts w).posts = s.posts := rfl
  unfold State.startStation
  rw [posts]
  cases (s.posts.get p).queue <;> rfl

theorem State.withPorts_askScheduler (speed : Speed) :
    (s.askScheduler speed).withPorts w = (s.withPorts w).askScheduler speed := by
  have examined : examine (s.withPorts w).weights (s.withPorts w).headLengths examinationBound 0
      (s.withPorts w).scheduler = examine s.weights s.headLengths examinationBound 0 s.scheduler := rfl
  unfold State.askScheduler
  simp only [examined]
  cases (examine s.weights s.headLengths examinationBound 0 s.scheduler).1 with
  | none => rfl
  | some p => exact State.withPorts_startStation _ w speed p

theorem State.withPorts_takeWork : s.takeWork.withPorts w = (s.withPorts w).takeWork := by
  have mac : (s.withPorts w).mac = s.mac := rfl
  unfold State.takeWork
  simp only [mac]
  split
  · split
    · rfl
    · exact s.withPorts_askScheduler w _
    · rfl
  · rfl

theorem State.withPorts_requestFlow (q : Half) : (s.requestFlow q).withPorts w = (s.withPorts w).requestFlow q :=
  State.withPorts_takeWork _ w

theorem State.withPorts_respond (n : Nat) : (s.respond n).withPorts w = (s.withPorts w).respond n := by
  have mac : (s.withPorts w).mac = s.mac := rfl
  unfold State.respond
  simp only [mac]
  split
  · exact State.withPorts_ite w (State.withPorts_requestFlow _ w _) rfl
  · exact State.withPorts_ite w (State.withPorts_requestFlow _ w _) rfl
  · rfl

theorem State.withPorts_closeEvent (t : State) :
    (State.closeEvent s t).withPorts w = State.closeEvent (s.withPorts w) (t.withPorts w) :=
  State.withPorts_ite w (State.withPorts_respond _ w _) rfl

/-! ### Classification and admission -/

theorem SeenAlike.withPorts (h : Handle) : SeenAlike s (s.withPorts w) h :=
  ⟨rfl, rfl, rfl, rfl, rfl, rfl, rfl⟩

theorem State.withPorts_countAsleep (dropped : StationSet) :
    (s.countAsleep dropped).withPorts w = (s.withPorts w).countAsleep dropped := by
  refine State.withPorts_foldl s w (fun t p => ?_) _
  exact State.withPorts_ite w (t.withPorts_countDrop w p .asleepDrops) rfl

theorem State.withPorts_classify (h : Handle) (origin : Origin) :
    (s.classify h origin).withPorts w = (s.withPorts w).classify h origin := by
  have seen := SeenAlike.withPorts s w h
  unfold State.classify
  simp only [seen.walkFrame, seen.resultOf, seen.asleepOf]
  exact State.withPorts_countAsleep _ w _

theorem State.withPorts_admitAt (h : Handle) (wake : Bool) (p : Station) :
    (s.admitAt h wake p).withPorts w = (s.withPorts w).admitAt h wake p := by
  unfold State.admitAt
  dsimp only
  refine State.withPorts_ite w ?_ ?_
  · simp only [State.withPorts_raiseFlag, State.withPorts_countStation]; rfl
  · simp only [State.withPorts_raiseFlag, State.withPorts_countStation]; rfl

theorem State.withPorts_offer (h : Handle) (wake : StationSet) (acc : State × Nat) (p : Station) :
    State.pairWithPorts (State.offer h wake acc p) w = State.offer h wake (State.pairWithPorts acc w) p := by
  have decided : (acc.1.withPorts w).decide ((acc.1.withPorts w).frame h).granules p =
      acc.1.decide (acc.1.frame h).granules p := rfl
  unfold State.offer State.pairWithPorts
  simp only [decided]
  cases acc.1.decide (acc.1.frame h).granules p <;>
    simp only [State.withPorts_countDrop, State.withPorts_admitAt]

theorem State.withPorts_admission (h : Handle) :
    State.pairWithPorts (s.admission h) w = (s.withPorts w).admission h := by
  have frame : (s.withPorts w).frame h = s.frame h := rfl
  unfold State.admission
  rw [frame]
  cases (s.frame h).result with
  | none => rfl
  | some r =>
    exact (List.foldl_hom (fun acc : State × Nat => State.pairWithPorts acc w) fun acc p =>
      (State.pairWithPorts_ite w (State.withPorts_offer w h r.wake acc p) rfl).symm).symm

/-! ### Posts -/

theorem State.withPorts_deliverPost (p : Station) (h : Handle) (flags : PostFlags) :
    State.pairWithPorts (s.deliverPost p h flags) w = (s.withPorts w).deliverPost p h flags := by
  refine State.pairWithPorts_ite w rfl ?_
  rw [State.withPorts_admission, State.withPorts_classify]

theorem State.withPorts_complete (p : Station) (c : Completion) :
    (s.complete p c).withPorts w = (s.withPorts w).complete p c :=
  State.withPorts_raiseFlag _ w .txdone p

theorem State.withPorts_queuePost (p : Station) (h : Handle) (n : Nat) :
    (s.queuePost p h n).withPorts w = (s.withPorts w).queuePost p h n :=
  State.withPorts_takeWork _ w

theorem State.withPorts_containPost (p : Station) (h : Handle) (n : Nat) :
    (s.containPost p h n).withPorts w = (s.withPorts w).containPost p h n := by
  rw [State.containPost, State.withPorts_countStation, State.withPorts_complete]; rfl

theorem State.withPorts_countPost (p : Station) (n : Nat) :
    (s.countPost p n).withPorts w = (s.withPorts w).countPost p n := by
  rw [State.countPost, State.withPorts_countStation, State.withPorts_countStation, State.countPost]

theorem State.withPorts_post (p : Station) (h : Handle) (flags : PostFlags) :
    State.pairWithPorts (s.post p h flags) w = (s.withPorts w).post p h flags := by
  have delivered : State.pairWithPorts ((s.settlePost p h).deliverPost p h flags) w =
      ((s.withPorts w).settlePost p h).deliverPost p h flags :=
    State.withPorts_deliverPost (s.settlePost p h) w p h flags
  have wired : ∀ t : State, ∀ n, (if t.goesToWire h flags then t.queuePost p h n
      else t.containPost p h n).withPorts w = if (t.withPorts w).goesToWire h flags then (t.withPorts w).queuePost p h n
      else (t.withPorts w).containPost p h n := fun t n =>
    State.withPorts_ite w (t.withPorts_queuePost w p h n) (t.withPorts_containPost w p h n)
  have finished : ∀ t : State, ∀ n, ((t.dropBuildHold p h).countPost p n).withPorts w =
      ((t.withPorts w).dropBuildHold p h).countPost p n := fun t n =>
    State.withPorts_countPost (t.dropBuildHold p h) w p n
  unfold State.post
  simp only [← delivered]
  simp only [State.pairWithPorts, State.withPorts_closeEvent, finished, wired]
  rfl

theorem State.withPorts_cancelPost (p : Station) (e : PostEntry) :
    (s.cancelPost p e).withPorts w = (s.withPorts w).cancelPost p e := by
  unfold State.cancelPost
  simp only [State.withPorts_countStation, State.withPorts_complete]; rfl

/-! ### The partition record -/

theorem State.withPorts_expireQueue (p : Station) : (s.expireQueue p).withPorts w = (s.withPorts w).expireQueue p := by
  have front : expiredFront ((s.withPorts w).intake.get p) (s.withPorts w).partition.installed.holdLimit
      (s.withPorts w).clock.now = expiredFront (s.intake.get p) s.partition.installed.holdLimit s.clock.now := rfl
  unfold State.expireQueue
  rw [front]
  cases expiredFront (s.intake.get p) s.partition.installed.holdLimit s.clock.now with
  | nil => rfl
  | cons e more =>
    simp only [State.withPorts_raiseFlag, State.withPorts_countStation]; rfl

theorem State.withPorts_expireAtInstallation (old : Half) :
    (s.expireAtInstallation old).withPorts w = (s.withPorts w).expireAtInstallation old :=
  State.withPorts_ite w rfl (State.withPorts_foldl s w (fun t p => t.withPorts_expireQueue w p) _)

theorem State.withPorts_install (n : Half) (r : PartitionRecord) :
    (s.install n r).withPorts w = (s.withPorts w).install n r := by
  unfold State.install
  simp only [State.withPorts_raiseFlagEverywhere, State.withPorts_expireAtInstallation]; rfl

theorem State.withPorts_abandon (o : Proposal) : (s.abandon o).withPorts w = (s.withPorts w).abandon o :=
  State.withPorts_raiseFlagAt _ w .abandoned _

theorem State.withPorts_settleProposal (o : Proposal) :
    (s.settleProposal o).withPorts w = (s.withPorts w).settleProposal o :=
  State.withPorts_ite w (s.withPorts_install w _ _) rfl

theorem State.withPorts_propose (p : Station) (r : PartitionRecord) :
    (s.propose p r).withPorts w = (s.withPorts w).propose p r :=
  State.withPorts_ite w (State.withPorts_install s.advanceCounter w _ _) (State.withPorts_raiseFlagAt _ w .proposal _)

/-! ### The steering table -/

theorem State.withPorts_publish (p : Station) (i : EntryIndex) (c : Contents) :
    (s.publish p i c).withPorts w = (s.withPorts w).publish p i c :=
  State.withPorts_raiseFlagAt _ w .table _

theorem State.withPorts_disable (i : EntryIndex) : (s.disable i).withPorts w = (s.withPorts w).disable i :=
  State.withPorts_ite w rfl rfl

theorem State.withPorts_retire (p : Station) (i : EntryIndex) :
    (s.retire p i).withPorts w = (s.withPorts w).retire p i :=
  State.withPorts_ite w (State.withPorts_raiseFlagAt _ w .table _) rfl

end

end Sys2Proof.Machine
end

section
/-! SUPPORT. Byte by byte, a command comes to the command-taken point that its row is (R179, R180). -/

namespace Sys2Proof.Machine

/-! ### The effects of the commands with input bytes -/

section
variable (s : State) (w : Per Port) (p : Station)

theorem setacceptEffect_withPorts (set value : Byte) :
    State.pairWithPorts (setacceptEffect p set value s) w = setacceptEffect p set value (s.withPorts w) := by
  unfold setacceptEffect
  split
  · exact State.pairWithPorts_ite w rfl rfl
  · rfl

theorem claimEffect_withPorts (index : Byte) :
    State.pairWithPorts (claimEffect p index s) w = claimEffect p index (s.withPorts w) := by
  have target : (s.withPorts w).claimTarget index = s.claimTarget index := rfl
  refine State.pairWithPorts_ite w rfl (State.pairWithPorts_ite w rfl ?_)
  rw [target]
  cases s.claimTarget index <;> rfl

theorem draftEffect_withPorts (contents : List Byte) :
    State.pairWithPorts (draftEffect p contents s) w = draftEffect p contents (s.withPorts w) := by
  unfold draftEffect
  cases contentsOfBytes contents <;> rfl

theorem State.ownedEntry_withPorts (index : Byte) : (s.withPorts w).ownedEntry p index = s.ownedEntry p index := rfl

theorem publishEffect_withPorts (index : Byte) :
    State.pairWithPorts (publishEffect p index s) w = publishEffect p index (s.withPorts w) := by
  have draft : (s.withPorts w).validDraft p = s.validDraft p := rfl
  unfold publishEffect
  rw [State.ownedEntry_withPorts]
  cases s.ownedEntry p index with
  | error r => rfl
  | ok i =>
    simp only [draft, ← State.withPorts_publish]
    cases s.validDraft p <;> rfl

theorem disableEffect_withPorts (index : Byte) :
    State.pairWithPorts (disableEffect p index s) w = disableEffect p index (s.withPorts w) := by
  unfold disableEffect
  rw [State.ownedEntry_withPorts]
  simp only [← State.withPorts_disable]
  cases s.ownedEntry p index <;> rfl

theorem retireEffect_withPorts (index : Byte) :
    State.pairWithPorts (retireEffect p index s) w = retireEffect p index (s.withPorts w) := by
  unfold retireEffect
  rw [State.ownedEntry_withPorts]
  simp only [← State.withPorts_retire]
  cases s.ownedEntry p index <;> rfl

theorem treadEffect_withPorts (index : Byte) :
    State.pairWithPorts (treadEffect p index s) w = treadEffect p index (s.withPorts w) := by
  unfold treadEffect
  cases indexOf index <;> rfl

theorem rxpeekEffect_withPorts (count : Byte) :
    State.pairWithPorts (rxpeekEffect p count s) w = rxpeekEffect p count (s.withPorts w) :=
  State.pairWithPorts_ite w rfl (State.pairWithPorts_ite w rfl rfl)

theorem State.queuedHandle_withPorts (handle : Byte) :
    (s.withPorts w).queuedHandle p handle = s.queuedHandle p handle := rfl

theorem rxreadEffect_withPorts (handle : Byte) (offset count : Half) (release : Byte) :
    State.pairWithPorts (rxreadEffect p handle offset count release s) w =
      rxreadEffect p handle offset count release (s.withPorts w) := by
  unfold rxreadEffect
  rw [State.queuedHandle_withPorts]
  cases s.queuedHandle p handle with
  | none => rfl
  | some h => exact State.pairWithPorts_ite w rfl rfl

theorem rxreleaseEffect_withPorts (handle : Byte) :
    State.pairWithPorts (rxreleaseEffect p handle s) w = rxreleaseEffect p handle (s.withPorts w) := by
  unfold rxreleaseEffect
  rw [State.queuedHandle_withPorts]
  cases s.queuedHandle p handle with
  | none => rfl
  | some h => exact congrArg (fun t => (t, answer [])) (State.withPorts_closeEvent s w (s.removeEntry p h))

theorem txopenEffect_withPorts (length : Half) :
    State.pairWithPorts (txopenEffect p length s) w = txopenEffect p length (s.withPorts w) := by
  have grant : (s.withPorts w).grantBuild p (granulesFor length.toNat) =
      s.grantBuild p (granulesFor length.toNat) := rfl
  refine State.pairWithPorts_ite w rfl (State.pairWithPorts_ite w rfl ?_)
  rw [grant]
  cases s.grantBuild p (granulesFor length.toNat) with
  | none => rfl
  | some h =>
    exact congrArg (fun t => (t, answer [BitVec.ofNat 8 h.val]))
      (State.withPorts_closeEvent s w (s.openBuild p h length.toNat))

theorem State.namedBuild_withPorts (handle : Byte) : (s.withPorts w).namedBuild p handle = s.namedBuild p handle := rfl

theorem txwriteEffect_withPorts (handle : Byte) (offset : Half) (data : List Byte) :
    State.pairWithPorts (txwriteEffect p handle offset data s) w =
      txwriteEffect p handle offset data (s.withPorts w) := by
  unfold txwriteEffect
  rw [State.namedBuild_withPorts]
  cases s.namedBuild p handle with
  | none => rfl
  | some h => exact State.pairWithPorts_ite w rfl rfl

theorem txpostEffect_withPorts (handle flags : Byte) :
    State.pairWithPorts (txpostEffect p handle flags s) w = txpostEffect p handle flags (s.withPorts w) := by
  unfold txpostEffect
  rw [State.namedBuild_withPorts]
  cases s.namedBuild p handle with
  | none => rfl
  | some h =>
    simp only [← State.withPorts_post]
    cases postFlagsOf flags <;> rfl

theorem txcancelEffect_withPorts (handle : Byte) :
    State.pairWithPorts (txcancelEffect p handle s) w = txcancelEffect p handle (s.withPorts w) := by
  have posted : (handleOf handle).bind ((s.withPorts w).postEntry p) = (handleOf handle).bind (s.postEntry p) := rfl
  unfold txcancelEffect
  rw [State.namedBuild_withPorts]
  cases s.namedBuild p handle with
  | some h => exact congrArg (fun t => (t, answer [])) (State.withPorts_closeEvent s w (s.dropBuildHold p h))
  | none =>
    simp only [posted, ← State.withPorts_cancelPost, ← State.withPorts_closeEvent]
    cases (handleOf handle).bind (s.postEntry p) with
    | none => rfl
    | some e => exact State.pairWithPorts_ite w rfl rfl

theorem proposeEffect_withPorts (r : PartitionRecord) :
    State.pairWithPorts (proposeEffect p r s) w = proposeEffect p r (s.withPorts w) := by
  unfold proposeEffect
  simp only [← State.withPorts_propose, ← State.withPorts_closeEvent]
  exact State.pairWithPorts_ite w rfl (State.pairWithPorts_ite w rfl rfl)

theorem State.voice_withPorts (number : Half) : (s.withPorts w).voice p number = s.voice p number := rfl

theorem endorseEffect_withPorts (number : Half) :
    State.pairWithPorts (endorseEffect p number s) w = endorseEffect p number (s.withPorts w) := by
  unfold endorseEffect
  rw [State.voice_withPorts]
  simp only [← State.withPorts_settleProposal, ← State.withPorts_closeEvent]
  cases s.voice p number <;> rfl

theorem objectEffect_withPorts (number : Half) :
    State.pairWithPorts (objectEffect p number s) w = objectEffect p number (s.withPorts w) := by
  unfold objectEffect
  rw [State.voice_withPorts]
  simp only [← State.withPorts_abandon]
  cases s.voice p number <;> rfl

theorem setmaskEffect_withPorts (mask : Half) :
    State.pairWithPorts (setmaskEffect p mask s) w = setmaskEffect p mask (s.withPorts w) := by
  unfold setmaskEffect
  cases flagsOfHalf mask <;> rfl

theorem snapshotEffect_withPorts (option : Byte) :
    State.pairWithPorts (snapshotEffect p option s) w = snapshotEffect p option (s.withPorts w) := by
  unfold snapshotEffect
  dsimp only
  split <;> rfl

/-- A command that has input bytes does the same on a hub with other ports. -/
theorem effectOf_withPorts {c : Command} (input : List Byte) (more : c.inputComplete [] = false) :
    State.pairWithPorts (effectOf c p input s) w = effectOf c p input (s.withPorts w) := by
  cases c
  case setaccept => exact setacceptEffect_withPorts s w p _ _
  case claim => exact claimEffect_withPorts s w p _
  case draft => exact draftEffect_withPorts s w p _
  case publish => exact publishEffect_withPorts s w p _
  case disable => exact disableEffect_withPorts s w p _
  case retire => exact retireEffect_withPorts s w p _
  case tread => exact treadEffect_withPorts s w p _
  case rxpeek => exact rxpeekEffect_withPorts s w p _
  case rxread => exact rxreadEffect_withPorts s w p _ _ _ _
  case rxrelease => exact rxreleaseEffect_withPorts s w p _
  case txopen => exact txopenEffect_withPorts s w p _
  case txwrite => exact txwriteEffect_withPorts s w p _ _ _
  case txpost => exact txpostEffect_withPorts s w p _ _
  case txcancel => exact txcancelEffect_withPorts s w p _
  case propose => exact proposeEffect_withPorts s w p _
  case endorse => exact endorseEffect_withPorts s w p _
  case object => exact objectEffect_withPorts s w p _
  case setmask => exact setmaskEffect_withPorts s w p _
  case snapshot => exact snapshotEffect_withPorts s w p _
  all_goals exact absurd more (by decide)

theorem checked_withPorts {c : Command} (input : List Byte) (more : c.inputComplete [] = false) :
    State.pairWithPorts (checked c p (effectOf c p input) s) w = checked c p (effectOf c p input) (s.withPorts w) :=
  State.pairWithPorts_ite w (effectOf_withPorts s w p input more) rfl

/-- No check and no effect of a command touches a port. -/
theorem checked_ports (c : Command) (input : List Byte) : (checked c p (effectOf c p input) s).1.ports = s.ports := by
  unfold checked
  split
  · exact (effectOf_spec c p input s).1
  · rfl

end

/-! ### One byte after another -/

theorem feedBytes_cons {p : Station} {b : Byte} {s t : State} (rest : List Byte)
    (byte : exec (.completedByte p b) s = .next t) : feedBytes p (b :: rest) s = feedBytes p rest t := by
  simp only [feedBytes, byte]

/-- The command-taken point finds in the port what the input bytes before the last one left as it was. -/
theorem State.takeCommand_await (s : State) (p : Station) {c : Command} (input got : List Byte) (b : Byte)
    (more : c.inputComplete [] = false) :
    (s.setPort p ((s.ports.get p).await c.code got b)).takeCommand p c input (effectOf c p input) =
      s.takeCommand p c input (effectOf c p input) := by
  have same := checked_withPorts s (s.ports.set p ((s.ports.get p).await c.code got b)) p input more
  have ports := checked_ports s p c input
  unfold State.takeCommand
  rw [State.setPort_eq_withPorts s p ((s.ports.get p).await c.code got b), ← same]
  simp only [State.pairWithPorts, State.withPorts, State.setPort, ports, Per.get_set_self, Per.set_set]
  rfl

theorem exec_completedByte_await {s : State} {p : Station} {c : Command} (got : List Byte) (b x : Byte) :
    exec (.completedByte p x) (s.setPort p ((s.ports.get p).await c.code got b)) =
      .next ((s.setPort p ((s.ports.get p).await c.code got b)).receive p c (got ++ [x]) 0) := by
  have port : (s.setPort p ((s.ports.get p).await c.code got b)).ports.get p = (s.ports.get p).await c.code got b := by
    simp
  rw [exec_completedByte_input (by rw [port]; rfl), State.receiveInput_code (c := c) (by rw [port]; rfl), port]
  rfl

/-- The input bytes still to come of a row whose first ones a port has taken in. -/
theorem feedBytes_await {i : Instr} {p : Station} {c : Command} {input : List Byte} {s : State}
    (row : commandInput i = some (p, c, input)) (wf : i.wf = true) (command : (s.ports.get p).phase = .command)
    (rest got : List Byte) (b : Byte) (whole : got ++ rest = input) (left : rest ≠ []) :
    feedBytes p rest (s.setPort p ((s.ports.get p).await c.code got b)) = exec i s := by
  obtain ⟨complete, proper⟩ := commandInput_complete row wf
  induction rest generalizing got b with
  | nil => exact absurd rfl left
  | cons x rest ih =>
    rw [feedBytes_cons rest (exec_completedByte_await got b x)]
    have further : got ++ [x] ++ rest = input := by simp [← whole]
    by_cases last : rest = []
    · subst last
      have all : got ++ [x] = input := by simpa using further
      have more : c.inputComplete [] = false := proper 0 (by simp [← whole])
      rw [all, State.receive, if_pos complete, State.takeCommand_await s p input got b more,
        exec_carried row wf (.inl command)]
      rfl
    · have part : c.inputComplete (got ++ [x]) = false := by
        have short : (got ++ [x]).length < input.length := by
          rw [← further, List.length_append (as := got ++ [x])]
          exact Nat.lt_add_of_pos_right (List.length_pos_iff.mpr last)
        have begins := proper _ short
        rwa [← further, List.take_left] at begins
      rw [State.receive_more part, State.setPort_setPort]
      simpa [Port.await] using ih (got ++ [x]) 0 further last

/-- Settles O10: the command byte, then one input byte after another. -/
theorem bytesCarryTheCommand : Obligations.BytesCarryTheCommand := by
  intro i p c input s row wf command
  obtain ⟨complete, proper⟩ := commandInput_complete row wf
  have first : exec (.completedByte p c.code) s = .next (s.receive p c [] (s.ports.get p).summary) := by
    rw [exec_completedByte_command command, State.receiveCommand_code]
  rw [feedBytes_cons input first]
  by_cases bare : input = []
  · subst bare
    exact State.receive_row row wf (.inl command) _
  · have more : c.inputComplete [] = false := proper 0 (List.length_pos_iff.mpr bare)
    rw [State.receive_more more]
    exact feedBytes_await row wf command input [] _ rfl bare

end Sys2Proof.Machine
end
